-- ==== Sys2Proof/Word.lean ====
section
/-!
DEFINITION. The plain data every other file is written with: bytes, 32-bit words, and the seven input lines
of 10_state.md R23.
-/

namespace Sys2Proof

/-- One byte: a cell of persistent storage (20_memory.md R60), a Morse pattern (30_encoding.md R84). -/
abbrev Byte := BitVec 8

/-- The width of a register of the read port (10_state.md R41), and the container of a tick count, which uses its
low `TCOUNT_W` bits (10_state.md R21). -/
abbrev Word := BitVec 32

/-- The seven input lines, in the numbering of 10_state.md R23: 0 `enc_a`, 1 `enc_b`, 2 `enc_btn`, 3 `rit_btn`,
4 `keyer_btn`, 5 `dot` (also the straight-key contact), 6 `dash`. -/
inductive Line
  | encA
  | encB
  | encBtn
  | ritBtn
  | keyerBtn
  | dot
  | dash
deriving DecidableEq, Repr, Inhabited

/-- One value per input line. -/
structure Lines (α : Type) where
  encA : α
  encB : α
  encBtn : α
  ritBtn : α
  keyerBtn : α
  dot : α
  dash : α
deriving DecidableEq, Repr, Inhabited

/-- The value of one line. -/
def Lines.get {α : Type} (x : Lines α) : Line → α
  | .encA => x.encA
  | .encB => x.encB
  | .encBtn => x.encBtn
  | .ritBtn => x.ritBtn
  | .keyerBtn => x.keyerBtn
  | .dot => x.dot
  | .dash => x.dash

/-- The lines whose values a function of the line gives. -/
def Lines.tabulate {α : Type} (f : Line → α) : Lines α :=
  { encA := f .encA, encB := f .encB, encBtn := f .encBtn, ritBtn := f .ritBtn
    keyerBtn := f .keyerBtn, dot := f .dot, dash := f .dash }

/-- The same value on every line. -/
def Lines.all {α : Type} (a : α) : Lines α := .tabulate fun _ => a

/-- A dot or a dash (00_scope.md §6, "element"). -/
inductive Element
  | dot
  | dash
deriving DecidableEq, Repr, Inhabited

end Sys2Proof
end

