-- ==== Sys2Proof/Syntax.lean ====
section
/-!
DEFINITION. The operation set of 30_encoding.md R80: one constructor per row of `spec/opcode_table.json`. The
sixteen host commands carry the operand bits of R82; the eleven tick sub-operations have no encoding and carry the
operands their rules name.
-/

namespace Sys2Proof

/-- The operations of the block (30_encoding.md R80, R83). -/
inductive Instr
  /-- `NOP` (R254). -/
  | nop
  /-- `INIT_DONE` (R255). -/
  | initDone
  /-- `SELECT m` (R256): the mode tag to enter. -/
  | select (m : BitVec 5)
  /-- `CONFIRM` (R257). -/
  | confirm
  /-- `CANCEL` (R258). -/
  | cancel
  /-- `MEM_DONE` (R259). -/
  | memDone
  /-- `FAULT code` (R260): the value for `errcode`. -/
  | fault (code : BitVec 8)
  /-- `SET_SPEED s` (R261): the speed in WPM. -/
  | setSpeed (speed : BitVec 5)
  /-- `SET_KEYMODE k` (R262): 0 `IAMBIC`, 1 `STRAIGHT`. -/
  | setKeymode (k : BitVec 1)
  /-- `SET_BEACON b` (R263): the new value of `beacon`. -/
  | setBeacon (b : BitVec 1)
  /-- `SET_MEMIDX i` (R264): the new value of `mem_tx_index`. -/
  | setMemidx (idx : BitVec 8)
  /-- `PLAY c` (R265): a 7-bit character code. -/
  | play (c : BitVec 7)
  /-- `DRAIN_ENC` (R266). -/
  | drainEnc
  /-- `ACK mask` (R267): the bits of `EVFLAGS` to clear. -/
  | ack (mask : BitVec 12)
  /-- `RESERVED_E` (R268): any word of opcode 0xE, with its low twelve bits. -/
  | reservedE (x : BitVec 12)
  /-- `RESERVED_F` (R268): any word of opcode 0xF, with its low twelve bits. -/
  | reservedF (x : BitVec 12)
  /-- `T.COUNT` (R102). -/
  | tCount
  /-- `S.DEBOUNCE(raw)` (R121): the raw sample of this tick. -/
  | sDebounce (raw : Lines Bool)
  /-- `S.EDGE` (R122). -/
  | sEdge
  /-- `S.QDEC` (R123). -/
  | sQdec
  /-- `S.RITLONG` (R124). -/
  | sRitlong
  /-- `K.STRAIGHT(c)` (R141): the debounced contact. -/
  | kStraight (c : Bool)
  /-- `K.IAMBIC(pd, ps)` (R154): the dot and the dash paddle as seen this tick. -/
  | kIambic (pd ps : Bool)
  /-- `P.FEED` (R237). -/
  | pFeed
  /-- `Q.AUTO` (R195). -/
  | qAuto
  /-- `Q.BEACON` (R197). -/
  | qBeacon
  /-- `T.BLINK` (R104). -/
  | tBlink
deriving DecidableEq, Repr

/-- Whether the operation is a host command, which a 16-bit word encodes (30_encoding.md R80). -/
def Instr.isCommand : Instr → Bool
  | .nop => true
  | .initDone => true
  | .select _ => true
  | .confirm => true
  | .cancel => true
  | .memDone => true
  | .fault _ => true
  | .setSpeed _ => true
  | .setKeymode _ => true
  | .setBeacon _ => true
  | .setMemidx _ => true
  | .play _ => true
  | .drainEnc => true
  | .ack _ => true
  | .reservedE _ => true
  | .reservedF _ => true
  | .tCount => false
  | .sDebounce _ => false
  | .sEdge => false
  | .sQdec => false
  | .sRitlong => false
  | .kStraight _ => false
  | .kIambic _ _ => false
  | .pFeed => false
  | .qAuto => false
  | .qBeacon => false
  | .tBlink => false

end Sys2Proof
end

