-- ==== Sys2Proof/Decode.lean ====
section
/-!
DEFINITION. The command words of 30_encoding.md: the opcode map of R83, the decoder, and the encoder written from
the same table.
-/

namespace Sys2Proof

/-- One row of the opcode map (30_encoding.md R83): a word `w` selects the row if `w &&& mask = pattern`. -/
structure OpcodeRow where
  mnemonic : String
  pattern : BitVec 16
  mask : BitVec 16
deriving DecidableEq, Repr

/-- The opcode map (30_encoding.md R83), the two reserved opcodes with their rows of `spec/opcode_table.json`. -/
def opcodeMap : List OpcodeRow := [
  ⟨"NOP", 0x0000, 0xFFFF⟩,
  ⟨"INIT_DONE", 0x1000, 0xFFFF⟩,
  ⟨"SELECT", 0x2000, 0xFFE0⟩,
  ⟨"CONFIRM", 0x3000, 0xFFFF⟩,
  ⟨"CANCEL", 0x4000, 0xFFFF⟩,
  ⟨"MEM_DONE", 0x5000, 0xFFFF⟩,
  ⟨"FAULT", 0x6000, 0xFF00⟩,
  ⟨"SET_SPEED", 0x7000, 0xFFE0⟩,
  ⟨"SET_KEYMODE", 0x8000, 0xFFFE⟩,
  ⟨"SET_BEACON", 0x9000, 0xFFFE⟩,
  ⟨"SET_MEMIDX", 0xA000, 0xFF00⟩,
  ⟨"PLAY", 0xB000, 0xFF80⟩,
  ⟨"DRAIN_ENC", 0xC000, 0xFFFF⟩,
  ⟨"ACK", 0xD000, 0xF000⟩,
  ⟨"RESERVED_E", 0xE000, 0xF000⟩,
  ⟨"RESERVED_F", 0xF000, 0xF000⟩]

/-- Why a word is no command (30_encoding.md R89). -/
inductive DecodeError
  /-- A must-be-zero operand bit is 1 (cause X3 of 60_exceptions.md R282); the opcode of the word. -/
  | operandBitsNotZero (op : BitVec 4)
deriving DecidableEq, Repr

/-- The opcode field, bits 15:12 (30_encoding.md R81). -/
def opField (w : BitVec 16) : BitVec 4 := w.extractLsb' 12 4

/-- The operand field, bits 11:0 (30_encoding.md R81). -/
def argField (w : BitVec 16) : BitVec 12 := w.extractLsb' 0 12

/-- The decoder: total on 16-bit words (30_encoding.md R82, R83). -/
def decode (w : BitVec 16) : Except DecodeError Instr :=
  if w &&& 0xFFFF = 0x0000 then .ok .nop
  else if w &&& 0xFFFF = 0x1000 then .ok .initDone
  else if w &&& 0xFFE0 = 0x2000 then .ok (.select (w.extractLsb' 0 5))
  else if w &&& 0xFFFF = 0x3000 then .ok .confirm
  else if w &&& 0xFFFF = 0x4000 then .ok .cancel
  else if w &&& 0xFFFF = 0x5000 then .ok .memDone
  else if w &&& 0xFF00 = 0x6000 then .ok (.fault (w.extractLsb' 0 8))
  else if w &&& 0xFFE0 = 0x7000 then .ok (.setSpeed (w.extractLsb' 0 5))
  else if w &&& 0xFFFE = 0x8000 then .ok (.setKeymode (w.extractLsb' 0 1))
  else if w &&& 0xFFFE = 0x9000 then .ok (.setBeacon (w.extractLsb' 0 1))
  else if w &&& 0xFF00 = 0xA000 then .ok (.setMemidx (w.extractLsb' 0 8))
  else if w &&& 0xFF80 = 0xB000 then .ok (.play (w.extractLsb' 0 7))
  else if w &&& 0xFFFF = 0xC000 then .ok .drainEnc
  else if w &&& 0xF000 = 0xD000 then .ok (.ack (argField w))
  else if w &&& 0xF000 = 0xE000 then .ok (.reservedE (argField w))
  else if w &&& 0xF000 = 0xF000 then .ok (.reservedF (argField w))
  else .error (.operandBitsNotZero (opField w))

/-- A command word from its two fields, `{op, arg}` (30_encoding.md R81). -/
def commandWord (op : BitVec 4) (arg : BitVec 12) : BitVec 16 := op ++ arg

/-- The encoder: the word of a host command, the operand in the bits of 30_encoding.md R82 and every other operand
bit 0; a tick sub-operation has no word (R80). -/
def encode : Instr → Option (BitVec 16)
  | .nop => some (commandWord 0x0 0)
  | .initDone => some (commandWord 0x1 0)
  | .select m => some (commandWord 0x2 (m.setWidth 12))
  | .confirm => some (commandWord 0x3 0)
  | .cancel => some (commandWord 0x4 0)
  | .memDone => some (commandWord 0x5 0)
  | .fault code => some (commandWord 0x6 (code.setWidth 12))
  | .setSpeed s => some (commandWord 0x7 (s.setWidth 12))
  | .setKeymode k => some (commandWord 0x8 (k.setWidth 12))
  | .setBeacon b => some (commandWord 0x9 (b.setWidth 12))
  | .setMemidx i => some (commandWord 0xA (i.setWidth 12))
  | .play c => some (commandWord 0xB (c.setWidth 12))
  | .drainEnc => some (commandWord 0xC 0)
  | .ack mask => some (commandWord 0xD mask)
  | .reservedE x => some (commandWord 0xE x)
  | .reservedF x => some (commandWord 0xF x)
  | .tCount => none
  | .sDebounce _ => none
  | .sEdge => none
  | .sQdec => none
  | .sRitlong => none
  | .kStraight _ => none
  | .kIambic _ _ => none
  | .pFeed => none
  | .qAuto => none
  | .qBeacon => none
  | .tBlink => none

/-- The command word of an `nbits`-bit table row: its low bits, every bit from `nbits` up 0. `none` where the table
gives the row no bits (a tick sub-operation, 30_encoding.md R80), or more than the one 16-bit word of R81. -/
def tableWord (nbits w : Nat) : Option (BitVec 16) :=
  if nbits = 0 then none
  else if nbits ≤ 16 then some (BitVec.ofNat 16 (w % 2 ^ nbits))
  else none

/-- The instruction the decoder reads from a word numbered as `spec/opcode_table.json` numbers it (log 10). -/
def decodeTableWord (nbits w : Nat) : Option Instr :=
  match tableWord nbits w with
  | none => none
  | some word =>
    match decode word with
    | .ok i => some i
    | .error _ => none

end Sys2Proof
end

