-- ==== Sys2Proof/Config.lean ====
section
/-!
DEFINITION. What an instance of the block fixes (the parameters of 00_scope.md R7), and the free values: what the
environment drives onto the input ports (10_state.md R46).
-/

namespace Sys2Proof.Config

/-- The parameters of 00_scope.md R7, one field each. A machine state carries its instance's parameters and no step
changes them, so that what is stated over all states holds for every value of every parameter (log 1). -/
structure Params where
  /-- `TICK_HZ`, the tick rate in Hz; no rule reads it. -/
  tickHz : Nat
  /-- `TICK_DIV`, clock cycles per tick. -/
  tickDiv : Nat
  /-- `TCOUNT_W`, the width of `tcount` in bits. -/
  tcountW : Nat
  /-- `DOT_NUM`, the dot duration numerator, ticks times WPM. -/
  dotNum : Nat
  /-- `KEY_MIN_SPEED`, in WPM. -/
  keyMinSpeed : Nat
  /-- `KEY_MAX_SPEED`, in WPM. -/
  keyMaxSpeed : Nat
  /-- `DEFAULT_SPEED`, in WPM. -/
  defaultSpeed : Nat
  /-- `DEBOUNCE_N`, consecutive differing samples that flip a debounced line. -/
  debounceN : Nat
  /-- `SQUEEZE_FIRST`, the element sent first when both paddles close in one tick with no previous element. -/
  squeezeFirst : Element
  /-- `BEACON_INTERVAL`, in dot-times. -/
  beaconInterval : Nat
  /-- `RIT_LONG_TICKS`, the RIT-button hold that counts as a long press. -/
  ritLongTicks : Nat
  /-- `ERASE_EN`, the erase long-press feature is enabled. -/
  eraseEn : Bool
  /-- `BLINK_BIT_0`. -/
  blinkBit0 : Nat
  /-- `BLINK_BIT_1`. -/
  blinkBit1 : Nat
  /-- `BLINK_BIT_2`. -/
  blinkBit2 : Nat
  /-- `NV_SIZE`, bytes of persistent storage. -/
  nvSize : Nat
  /-- `NV_SPEED_ADDR`, the offset of the CW speed byte. -/
  nvSpeedAddr : Nat
  /-- `MEM_SLOTS`, the number of message slots. -/
  memSlots : Nat
  /-- `MEMORY_LENGTH`, bytes per message slot; no rule of the block reads it. -/
  memoryLength : Nat
  /-- `OBSCURE_ABBREV`, digits are sent as the patterns of `DIGIT_ABBREV`. -/
  obscureAbbrev : Bool
  /-- `DIGIT_ABBREV[0..9]`, ten patterns; 0 means fall back to the table (45_morse_codec_playback.md R233). -/
  digitAbbrev : List Byte
  /-- `UNRECOGNIZED_PATTERN`; 0 means skip (45_morse_codec_playback.md R234). -/
  unrecognizedPattern : Byte
deriving DecidableEq, Repr

/-- The constraints of 00_scope.md R7. -/
structure Params.Valid (p : Params) : Prop where
  tickDiv : 2 ≤ p.tickDiv
  tcountWLow : 16 ≤ p.tcountW
  tcountWHigh : p.tcountW ≤ 32
  dotNumLow : p.keyMaxSpeed ≤ p.dotNum
  dotNumHigh : 3 * (p.dotNum / p.keyMinSpeed) < 2 ^ 16
  keyMinSpeed : 1 ≤ p.keyMinSpeed
  keyMaxSpeedLow : p.keyMinSpeed ≤ p.keyMaxSpeed
  keyMaxSpeedHigh : p.keyMaxSpeed ≤ 31
  defaultSpeedLow : p.keyMinSpeed ≤ p.defaultSpeed
  defaultSpeedHigh : p.defaultSpeed ≤ p.keyMaxSpeed
  debounceN : 1 ≤ p.debounceN
  beaconInterval : p.beaconInterval * (p.dotNum / p.keyMinSpeed) < 2 ^ (p.tcountW - 1)
  ritLongTicksLow : 1 ≤ p.ritLongTicks
  ritLongTicksHigh : p.ritLongTicks < 2 ^ (p.tcountW - 1)
  blinkBit0 : p.blinkBit0 < p.tcountW
  blinkBit1 : p.blinkBit1 < p.tcountW
  blinkBit2 : p.blinkBit2 < p.tcountW
  nvSize : 1 ≤ p.nvSize
  nvSpeedAddr : p.nvSpeedAddr < p.nvSize
  memSlotsLow : 1 ≤ p.memSlots
  memSlotsHigh : p.memSlots ≤ 256
  digitAbbrev : p.digitAbbrev.length = 10

/-- The parameters of the machine that `State.reset` shows: the defaults of 00_scope.md R7 and the conventions of
95_test_vectors.md; for the parameters neither gives, the least value R7 admits, and `BLINK_BIT_k = 8` as in vector
T7. DESIGN CHOICE (log 1), unsafe for a claim that rests on one of these values: no statement does. -/
def conventions : Params where
  tickHz := 1000
  tickDiv := 2
  tcountW := 32
  dotNum := 1200
  keyMinSpeed := 5
  keyMaxSpeed := 30
  defaultSpeed := 20
  debounceN := 1
  squeezeFirst := .dot
  beaconInterval := 100
  ritLongTicks := 2000
  eraseEn := true
  blinkBit0 := 8
  blinkBit1 := 8
  blinkBit2 := 8
  nvSize := 1
  nvSpeedAddr := 0
  memSlots := 2
  memoryLength := 1
  obscureAbbrev := false
  digitAbbrev := [0, 0, 0, 0, 0, 0, 0, 0, 0, 0]
  unrecognizedPattern := 0

/-- The levels on the input ports in one clock cycle (10_state.md R46). `clk` is the step itself, and `nv_rdata` is
read from the storage that the state holds (20_memory.md R60). -/
structure Pins where
  /-- `rst`: synchronous reset, active high. -/
  rst : Bool
  /-- `raw`: the raw lines, positive logic. -/
  raw : Lines Bool
  /-- `cmd_valid`: the host offers a command this cycle. -/
  cmdValid : Bool
  /-- `cmd`: the command word. -/
  cmd : BitVec 16
  /-- `rd_addr`: the register number to read. -/
  rdAddr : BitVec 4
deriving DecidableEq, Repr, Inhabited

/-- What the environment drives in the clock cycle of that number when nothing is scheduled: a free value, since the
inputs are "free to take any value" (60_exceptions.md R289; 93_implementation_defined.md U13, U14; log 3). -/
opaque freePins : Nat → Pins

end Sys2Proof.Config
end

