-- ==== Sys2Proof/Machine/State.lean ====
section
/-!
DEFINITION. The state of the block (10_state.md), as plain data, its reset value (R52), and the reasons a step can
stop.
-/

namespace Sys2Proof.Machine

/-- `key.mode` (10_state.md R28, codes of 30_encoding.md R87). -/
inductive KeyMode
  | iambic
  | straight
deriving DecidableEq, Repr

/-- `key.phase` (10_state.md R34). -/
inductive Phase
  | idle
  | element
  | gap
  | wait
deriving DecidableEq, Repr

/-- `key.last` (10_state.md R35): the code 3 never occurs (93_implementation_defined.md U21). -/
inductive LastElement
  | none
  | dot
  | dash
deriving DecidableEq, Repr

/-- The key events (30_encoding.md R86): the codes 6 and 7 are never produced. -/
inductive Event
  | none
  | start
  | dot
  | dash
  | eoe
  | eoc
deriving DecidableEq, Repr

/-- The 17 modes, in the order of their tags (30_encoding.md R85). -/
inductive Mode
  | startup
  | default
  | keying
  | adjustCs
  | tune
  | changeBand
  | dfe
  | memSendWait
  | memSendTx
  | memEnterWait
  | memEnter
  | memEnterReview
  | calibrationCorrection
  | calibrationPeakIf
  | calibrationChangeBand
  | calibrationPeakRx
  | error
deriving DecidableEq, Repr

/-- `KeyState` (10_state.md R28 to R36). -/
structure KeyState where
  mode : KeyMode
  timeout : Bool
  dot : Bool
  dash : Bool
  speed : BitVec 5
  dotTime : BitVec 16
  dashTime : BitVec 16
  timer : BitVec 16
  phase : Phase
  last : LastElement
  keyDown : Bool
deriving DecidableEq, Repr

/-- The playback state `pb_pat`, `pb_rem`, `pb_active` (10_state.md R39). -/
structure Playback where
  pat : Byte
  rem : BitVec 3
  active : Bool
deriving DecidableEq, Repr

/-- Persistent storage: the bytes that differ from what an unlisted address reads as, addresses strictly rising
(20_memory.md R60; log 4). -/
abbrev Memory := List Host.Cell

/-- What the storage port showed (10_state.md R47 `nv_addr`, `nv_re`, `nv_we`, `nv_wdata`; 20_memory.md R75; log 7). -/
inductive NvAccess
  /-- No access, and every wire of the port at 0: the port after a reset (70_reset_and_hazards.md R301, vector Z1). -/
  | rest
  /-- A read: `nv_re` with `nv_addr`, and the byte that came back. -/
  | read (addr : Nat) (value : Byte)
  /-- A write: `nv_we` with `nv_addr` and `nv_wdata`. -/
  | write (addr : Nat) (value : Byte)
deriving DecidableEq, Repr

/-- `(ok, rsp)` of a command step (46_host_commands.md R251): the outputs `cmd_ok` and `cmd_rsp`. -/
structure Answer where
  ok : Bool
  rsp : BitVec 16
deriving DecidableEq, Repr

/-- The temporaries of the tick step's pseudocode, idle between steps: `old[0..6]` of 41_debounce_sampler.md R121 and
`transitioned` of 44_mode_sequencer.md R195 (log 9). -/
structure TickLocals where
  old : Lines Bool
  transitioned : Bool
deriving DecidableEq, Repr

/-- The temporaries between two tick steps. -/
def TickLocals.idle : TickLocals := { old := .all false, transitioned := false }

/-- The state of the block: the elements of 10_state.md R20, the output `ev` of R45, persistent storage (20_memory.md
R60), and the model's own fields, which their docstrings name as such. -/
structure State where
  /-- The instance's parameters (00_scope.md R7): the model's own field, changed by no step (log 1). -/
  cfg : Config.Params
  /-- `presc` (R22). -/
  presc : Nat
  /-- `tcount` (R21): the low `TCOUNT_W` bits of a word (log 11). -/
  tcount : Word
  /-- `db[0..6]` (R23). -/
  db : Lines Bool
  /-- `cnt[0..6]` (R24). -/
  cnt : Lines Nat
  /-- `encoder_value` (R25), two's complement. -/
  encoderValue : BitVec 2
  /-- `encoder_last_clock` (R26). -/
  encoderLastClock : Bool
  /-- `rit_t0` (R27). -/
  ritT0 : Word
  /-- `rit_armed` (R27). -/
  ritArmed : Bool
  /-- `key.*` (R28 to R36). -/
  key : KeyState
  /-- `mode` (R37). -/
  mode : Mode
  /-- `beacon` (R38). -/
  beacon : Bool
  /-- `mem_tx_index` (R38). -/
  memTxIndex : BitVec 8
  /-- `beacon_t0` (R38). -/
  beaconT0 : Word
  /-- `pb_pat`, `pb_rem`, `pb_active` (R39). -/
  pb : Playback
  /-- `errcode` (R40). -/
  errcode : BitVec 8
  /-- `EVFLAGS` (R44). -/
  evflags : BitVec 12
  /-- The output `ev` (R45). -/
  ev : Event
  /-- The blink phases as `T.BLINK` last derived them (40_tick_scheduler.md R104): the model's own record, which no
  output reads; the output is a function of `tcount` (R47; log 8). -/
  blink : BitVec 3
  /-- Persistent storage (20_memory.md R60). -/
  nv : Memory
  /-- The tick step's temporaries: the model's own field (log 9). -/
  locals : TickLocals
  /-- The answer of the command taken in the cycle just performed, if one was; `(0, 0)` after a reset (vector Z1): the
  model's own field (log 6). -/
  answer : Option Answer
  /-- The storage accesses of the cycle just performed; the port at rest after a reset: the model's own field (log 7). -/
  bus : List NvAccess
  /-- The input-port levels of the coming cycles: the model's own field (log 3). -/
  schedule : List Config.Pins
  /-- How many clock cycles have passed: the model's own field, read only by the free input levels (log 3). -/
  cycle : Nat
deriving DecidableEq, Repr

/-- Why a step stops. -/
inductive Fault
  /-- An access to persistent storage at an offset from `NV_SIZE` up, where no byte exists (20_memory.md R60). Raised
  by `nvRead` and `nvWrite`; R66 says the block never makes such an access, and with parameters that meet R7 it does
  not. Safe: the machine stops (log 5). -/
  | nvOutOfRange (addr : Nat)
deriving DecidableEq, Repr

/-- Why a step is refused. -/
inductive Refusal
  /-- No meaning for the instruction. Raised by no arm: every instruction has its meaning. Safe: nothing runs. -/
  | notModelled (mnemonic : String)
deriving DecidableEq, Repr

/-- The outcome of a step of this machine. -/
abbrev Result := Host.Outcome State Fault Refusal

/-- Every state element at its reset value (10_state.md R52, 70_reset_and_hazards.md R301), for the parameters `p`.
Persistent storage is not reset, and what the environment will drive is no state of the block: both are given. -/
def State.resetWith (p : Config.Params) (nv : Memory) (schedule : List Config.Pins) (cycle : Nat) : State where
  cfg := p
  presc := 0
  tcount := 0
  db := .all false
  cnt := .all 0
  encoderValue := 0
  encoderLastClock := false
  ritT0 := 0
  ritArmed := false
  key := {
    mode := .iambic
    timeout := false
    dot := false
    dash := false
    speed := BitVec.ofNat 5 p.defaultSpeed
    dotTime := BitVec.ofNat 16 (p.dotNum / p.defaultSpeed)
    dashTime := BitVec.ofNat 16 (3 * (p.dotNum / p.defaultSpeed))
    timer := 0
    phase := .idle
    last := .none
    keyDown := false }
  mode := .startup
  beacon := false
  memTxIndex := 0
  beaconT0 := 0
  pb := { pat := 0, rem := 0, active := false }
  errcode := 0
  evflags := 0
  ev := .none
  blink := 0
  nv := nv
  locals := .idle
  answer := some { ok := false, rsp := 0 }
  bus := [.rest]
  schedule := schedule
  cycle := cycle

/-- The machine right after reset (10_state.md R52), with the parameters of `Config.conventions` (log 1), storage
that nothing has written (log 4), and nothing scheduled, so that every input is a free value (log 3). -/
def State.reset : State := State.resetWith Config.conventions [] [] 0

end Sys2Proof.Machine
end

