-- ==== Sys2Proof/Machine/Flags.lean ====
section
/-!
DEFINITION. The sticky flags `EVFLAGS` (10_state.md R44) and the key event `ev` (R45).
-/

namespace Sys2Proof.Machine

/-- The twelve sticky flags, in the order of their bits (10_state.md R44). -/
inductive Flag
  | evStart
  | evDot
  | evDash
  | evEoe
  | evEoc
  | encBtnPress
  | ritPress
  | keyerPress
  | ritLong
  | pbDone
  | pbReq
  | cmdRej
deriving DecidableEq, Repr

/-- The bit of a flag in `EVFLAGS` (10_state.md R44), as a mask. -/
def Flag.mask : Flag → BitVec 12
  | .evStart => 0x001
  | .evDot => 0x002
  | .evDash => 0x004
  | .evEoe => 0x008
  | .evEoc => 0x010
  | .encBtnPress => 0x020
  | .ritPress => 0x040
  | .keyerPress => 0x080
  | .ritLong => 0x100
  | .pbDone => 0x200
  | .pbReq => 0x400
  | .cmdRej => 0x800

/-- `flag(F)` (00_scope.md R11): set the sticky bit; a bit already 1 stays 1. -/
def flag (f : Flag) (s : State) : State := { s with evflags := s.evflags ||| f.mask }

/-- `if c: flag(F)`. -/
def flagIf (c : Bool) (f : Flag) (s : State) : State := if c then flag f s else s

/-- The sticky flag of a key event (30_encoding.md R86: `EVFLAGS` bits 0 to 4). -/
def Event.flag : Event → Option Flag
  | .none => .none
  | .start => some .evStart
  | .dot => some .evDot
  | .dash => some .evDash
  | .eoe => some .evEoe
  | .eoc => some .evEoc

/-- `emit(e)` (00_scope.md R11): this tick's key event. -/
def emit (e : Event) (s : State) : State := { s with ev := e }

/-- Line 6 of the tick step (40_tick_scheduler.md R101): `ev <- NONE`. -/
def clearEvent (s : State) : State := { s with ev := .none }

/-- Line 8 of the tick step (40_tick_scheduler.md R101): `if ev != NONE: flag(EV_<ev>)`. -/
def flagEvent (s : State) : State :=
  match s.ev.flag with
  | none => s
  | some f => flag f s

/-- Whether the event is the start of an element: `ev in {DOT, DASH}` (45_morse_codec_playback.md R237). -/
def Event.isElement : Event → Bool
  | .dot => true
  | .dash => true
  | .none => false
  | .start => false
  | .eoe => false
  | .eoc => false

/-- Whether the event is paddle activity: `ev in {START, DOT, DASH}` (44_mode_sequencer.md R195). -/
def Event.isActivity : Event → Bool
  | .start => true
  | .dot => true
  | .dash => true
  | .none => false
  | .eoe => false
  | .eoc => false

end Sys2Proof.Machine
end

