-- ==== Sys2Proof/Machine/Ops.lean ====
section
/-!
DEFINITION. The operations every meaning is built from: storage accesses, the tick-count arithmetic, the procedures
`SetTimes`, `KeyReset`, `Enter`, `LoadSpeed`, taking the Fault exception (`raise Fault`) with the reset that alone
leaves it, and the answers of a command step.
-/

namespace Sys2Proof.Machine

/-! ## Outcomes -/

/-- Run one operation after another; the first that stops ends both. -/
def andThen (o : Result) (f : State → Result) : Result :=
  match o with
  | .next s => f s
  | .fault r => .fault r
  | .refused r => .refused r

/-! ## Persistent storage (20_memory.md) -/

/-- What a byte that nothing has written reads as: 0xFF, an erased cell. The spec gives the contents no value
(93_implementation_defined.md U12). DESIGN CHOICE (log 4), unsafe for a claim about storage nothing has written. -/
def nvErased : Byte := 0xFF

/-- The byte at an address (20_memory.md R60, `MemRead` of 00_scope.md R11). -/
def Memory.read : Memory → Nat → Byte
  | [], _ => nvErased
  | (a, v) :: m, x => if x = a then v else Memory.read m x

/-- Store a byte and keep the canonical form (20_memory.md R60, `MemWrite` of 00_scope.md R11). -/
def Memory.write : Memory → Nat → Byte → Memory
  | [], x, b => if b = nvErased then [] else [(x, b)]
  | (a, v) :: m, x, b =>
    if x < a then (if b = nvErased then (a, v) :: m else (x, b) :: (a, v) :: m)
    else if x = a then (if b = nvErased then m else (a, b) :: m)
    else (a, v) :: Memory.write m x b

/-- The canonical form from an address up: addresses strictly rising, no cell equal to `nvErased`. -/
def Memory.wfFrom : Nat → Memory → Bool
  | _, [] => true
  | lo, (a, v) :: m => decide (lo ≤ a) && decide (v ≠ nvErased) && Memory.wfFrom (a + 1) m

/-- The canonical form: equal memories are equal data. -/
def Memory.wf (m : Memory) : Bool := Memory.wfFrom 0 m

/-- Read one byte on the storage port and go on with it (20_memory.md R67, R75); an offset from `NV_SIZE` up does not
exist (R60, R66; log 5). -/
def nvRead (addr : Nat) (k : Byte → State → Result) (s : State) : Result :=
  if addr < s.cfg.nvSize then
    k (s.nv.read addr) { s with bus := s.bus ++ [.read addr (s.nv.read addr)] }
  else .fault (.nvOutOfRange addr)

/-- Write one byte on the storage port (20_memory.md R67, R75); an offset from `NV_SIZE` up does not exist (R60, R66;
log 5). -/
def nvWrite (addr : Nat) (v : Byte) (s : State) : Result :=
  if addr < s.cfg.nvSize then
    .next { s with nv := s.nv.write addr v, bus := s.bus ++ [.write addr v] }
  else .fault (.nvOutOfRange addr)

/-! ## Tick-count arithmetic (40_tick_scheduler.md) -/

/-- A count modulo `2^TCOUNT_W` (10_state.md R21). -/
def tickCount (w n : Nat) : Word := BitVec.ofNat 32 (n % 2 ^ w)

/-- `sdiff(a, b)` (00_scope.md R11, 40_tick_scheduler.md R103) for a counter of `w` bits. -/
def sdiff (w : Nat) (a b : Word) : Int :=
  let d : Int := ((a.toNat : Int) - (b.toNat : Int)) % (2 ^ w : Int)
  if d < (2 ^ (w - 1) : Int) then d else d - (2 ^ w : Int)

/-- `due(t0, L)` (40_tick_scheduler.md R103). -/
def due (t0 : Word) (limit : Nat) (s : State) : Bool :=
  decide ((limit : Int) ≤ sdiff s.cfg.tcountW s.tcount t0)

/-! ## The key engine's procedures (43_iambic_key_decoder.md) -/

/-- `SetTimes()` (43_iambic_key_decoder.md R151). -/
def setTimes (s : State) : State :=
  { s with key := { s.key with
      dotTime := BitVec.ofNat 16 (s.cfg.dotNum / s.key.speed.toNat)
      dashTime := BitVec.ofNat 16 (3 * (s.cfg.dotNum / s.key.speed.toNat)) } }

/-- `key.speed <- v; SetTimes()`: every write of the speed (10_state.md R32). -/
def writeSpeed (v : BitVec 5) (s : State) : State := setTimes { s with key := { s.key with speed := v } }

/-- `KeyReset()` (43_iambic_key_decoder.md R153). -/
def keyReset (s : State) : State :=
  { s with key := { s.key with
      phase := .idle
      timer := 0
      dot := false
      dash := false
      timeout := false
      keyDown := false
      last := .none } }

/-- `LoadSpeed()` (46_host_commands.md R269): a stored byte out of range is replaced by the default and left as it is
in storage (20_memory.md R76). -/
def loadSpeed (s : State) : Result :=
  nvRead s.cfg.nvSpeedAddr
    (fun b s =>
      .next (writeSpeed
        (if s.cfg.keyMinSpeed ≤ b.toNat ∧ b.toNat ≤ s.cfg.keyMaxSpeed then b.extractLsb' 0 5
         else BitVec.ofNat 5 s.cfg.defaultSpeed) s))
    s

/-! ## The sequencer's procedures (44_mode_sequencer.md) -/

/-- Drop any playback in progress (44_mode_sequencer.md R196). -/
def clearPlayback (s : State) : State := { s with pb := { pat := 0, rem := 0, active := false } }

/-- `Enter(m)` (44_mode_sequencer.md R196). -/
def enter (m : Mode) (s : State) : State :=
  let f := s.mode
  let s := { s with mode := m }
  let s := if f = .default ∧ m = .keying then s else keyReset s
  let s := clearPlayback s
  let s := if m = .default then { s with beaconT0 := s.tcount } else s
  flagIf (decide (m = .memSendTx)) .pbReq s

/-! ## The exception and the way out of it (60_exceptions.md) -/

/-- `raise Fault(code)` (60_exceptions.md R283): the one exception. It saves the code, and enters `ERROR`; nothing
else is saved. -/
def raiseFault (code : BitVec 8) (s : State) : State := enter .error { s with errcode := code }

/-- The reset input (70_reset_and_hazards.md R300): the only way out of `ERROR` (60_exceptions.md R284). Every state
element takes its reset value; persistent storage, the parameters and the environment's schedule are no state
elements. -/
def hwReset (s : State) : State := State.resetWith s.cfg s.nv s.schedule s.cycle

/-! ## Answers of a command step (46_host_commands.md) -/

/-- The command is performed: `ok = 1` and the response value (46_host_commands.md R251). -/
def accept (rsp : BitVec 16) (s : State) : Result := .next { s with answer := some { ok := true, rsp := rsp } }

/-- `reject` (46_host_commands.md R253): no state change but `CMD_REJ`; the answer is `(0, 0)`. -/
def reject (s : State) : Result := .next { flag .cmdRej s with answer := some { ok := false, rsp := 0 } }

/-- The legality check comes first, and a command that passes it is performed completely (46_host_commands.md R251). -/
def perform (legal : Bool) (act : State → Result) (s : State) : Result := if legal then act s else reject s

end Sys2Proof.Machine
end

