-- ==== Sys2Proof/Machine/Operands.lean ====
section
/-!
DEFINITION. The operand forms of the commands (30_encoding.md R82), the codes of the enumerations (R85 to R87), and
the sets of modes the rules name (44_mode_sequencer.md R192, 46_host_commands.md R252).
-/

namespace Sys2Proof.Machine

/-! ## Codes (30_encoding.md R85 to R87) -/

/-- The mode tag (30_encoding.md R85). -/
def Mode.tag : Mode → BitVec 5
  | .startup => 0
  | .default => 1
  | .keying => 2
  | .adjustCs => 3
  | .tune => 4
  | .changeBand => 5
  | .dfe => 6
  | .memSendWait => 7
  | .memSendTx => 8
  | .memEnterWait => 9
  | .memEnter => 10
  | .memEnterReview => 11
  | .calibrationCorrection => 12
  | .calibrationPeakIf => 13
  | .calibrationChangeBand => 14
  | .calibrationPeakRx => 15
  | .error => 16

/-- The event code (30_encoding.md R86). -/
def Event.code : Event → BitVec 3
  | .none => 0
  | .start => 1
  | .dot => 2
  | .dash => 3
  | .eoe => 4
  | .eoc => 5

/-- The code of `key.mode` (30_encoding.md R87). -/
def KeyMode.code : KeyMode → BitVec 1
  | .iambic => 0
  | .straight => 1

/-- The code of `key.phase` (30_encoding.md R87). -/
def Phase.code : Phase → BitVec 2
  | .idle => 0
  | .element => 1
  | .gap => 2
  | .wait => 3

/-- The code of `key.last` (30_encoding.md R87). -/
def LastElement.code : LastElement → BitVec 2
  | .none => 0
  | .dot => 1
  | .dash => 2

/-! ## Operands (30_encoding.md R82) -/

/-- The mode a `SELECT` operand names, if it is one of the seven that can be selected (46_host_commands.md R256). -/
def selectTarget (m : BitVec 5) : Option Mode :=
  match m.toNat with
  | 3 => some .adjustCs
  | 4 => some .tune
  | 5 => some .changeBand
  | 6 => some .dfe
  | 7 => some .memSendWait
  | 9 => some .memEnterWait
  | 12 => some .calibrationCorrection
  | _ => none

/-- Whether a `SET_SPEED` operand is in `[KEY_MIN_SPEED, KEY_MAX_SPEED]` (46_host_commands.md R261). -/
def speedLegal (p : Config.Params) (v : BitVec 5) : Bool :=
  decide (p.keyMinSpeed ≤ v.toNat) && decide (v.toNat ≤ p.keyMaxSpeed)

/-- Whether a `SET_MEMIDX` operand names a slot (46_host_commands.md R264). -/
def slotLegal (p : Config.Params) (i : BitVec 8) : Bool := decide (i.toNat < p.memSlots)

/-- The value of a `SET_KEYMODE` operand (46_host_commands.md R262). -/
def keyModeOf (k : BitVec 1) : KeyMode := if k = 1 then .straight else .iambic

/-- The value of a `SET_BEACON` operand (46_host_commands.md R263). -/
def beaconOf (b : BitVec 1) : Bool := decide (b = 1)

/-! ## Sets of modes -/

/-- `PHYS_KEY_MODES`: the key step runs on the physical lines (44_mode_sequencer.md R192). -/
def Mode.physKey (m : Mode) : Bool := [Mode.default, .keying, .adjustCs, .memEnter].contains m

/-- `TX_MODES`: `key_down` reaches `tx_en` (44_mode_sequencer.md R192). -/
def Mode.txKey (m : Mode) : Bool := [Mode.keying, .memSendTx].contains m

/-- The modes in which `CANCEL` is legal: all but `STARTUP`, `DEFAULT`, `KEYING`, `ERROR` (46_host_commands.md R258). -/
def Mode.cancellable (m : Mode) : Bool := !([Mode.startup, .default, .keying, .error].contains m)

/-- Where `CONFIRM` leads, if it is legal (46_host_commands.md R257). -/
def confirmTarget : Mode → Option Mode
  | .adjustCs => some .default
  | .tune => some .default
  | .changeBand => some .default
  | .dfe => some .default
  | .memSendWait => some .memSendTx
  | .memEnterWait => some .memEnter
  | .memEnter => some .memEnterReview
  | .memEnterReview => some .default
  | .calibrationCorrection => some .calibrationPeakIf
  | .calibrationPeakIf => some .calibrationChangeBand
  | .calibrationChangeBand => some .calibrationPeakRx
  | .calibrationPeakRx => some .default
  | .startup => none
  | .default => none
  | .keying => none
  | .memSendTx => none
  | .error => none

end Sys2Proof.Machine
end

