-- ==== Sys2Proof/Machine/Codec.lean ====
section
/-!
DEFINITION. The Morse codec (45_morse_codec_playback.md R230 to R234) and the pattern format (30_encoding.md R84).
-/

namespace Sys2Proof.Machine

/-- The number of elements of a pattern: the position of its highest set bit (30_encoding.md R84). The value 0 is no
pattern and has no length in the spec; 0 here is the model's choice (DESIGN CHOICE, log 15), which no step evaluates. -/
def patternLength (p : Byte) : Nat := Nat.log2 p.toNat

/-- The element a pattern bit stands for: 0 a dot, 1 a dash (30_encoding.md R84). -/
def elementOfBit (b : Bool) : Element := if b then .dash else .dot

/-- `Encode(p)` (45_morse_codec_playback.md R232): element `j` is bit `n - j`. `Encode(0)` is undefined in the spec; the
empty list here is the model's choice (DESIGN CHOICE, log 15), which no step evaluates. -/
def encodePattern (p : Byte) : List Element :=
  (List.range (patternLength p)).map fun j => elementOfBit (p.getLsbD (patternLength p - (j + 1)))

/-- The 37 non-zero entries of the Morse pattern ROM (45_morse_codec_playback.md R231), by character code: letters,
then digits, then `?`. International Morse in the document's format: general knowledge in the spec itself
(93_implementation_defined.md GK1, GK2; PRESUMED, log 14). -/
def morseRom : List (Nat × Byte) := [
  (65, 5), (66, 24), (67, 26), (68, 12), (69, 2), (70, 18), (71, 14), (72, 16), (73, 4), (74, 23),
  (75, 13), (76, 20), (77, 7), (78, 6), (79, 15), (80, 22), (81, 29), (82, 10), (83, 8), (84, 3),
  (85, 9), (86, 17), (87, 11), (88, 25), (89, 27), (90, 28),
  (48, 63), (49, 47), (50, 39), (51, 35), (52, 33), (53, 32), (54, 48), (55, 56), (56, 60), (57, 62),
  (63, 76)]

/-- `Table(c)` (45_morse_codec_playback.md R231): 0 where there is no entry. -/
def morseTable (c : BitVec 7) : Byte := (morseRom.lookup c.toNat).getD 0

/-- `DIGIT_ABBREV[c - 48]` where `OBSCURE_ABBREV = 1` and `c` is a digit, else 0 (45_morse_codec_playback.md R233). -/
def digitPattern (p : Config.Params) (c : BitVec 7) : Byte :=
  if p.obscureAbbrev = true ∧ 48 ≤ c.toNat ∧ c.toNat ≤ 57 then p.digitAbbrev.getD (c.toNat - 48) 0 else 0

/-- `Pattern(c)` (45_morse_codec_playback.md R234). -/
def patternOf (p : Config.Params) (c : BitVec 7) : Byte :=
  let q := if digitPattern p c ≠ 0 then digitPattern p c else morseTable c
  if q = 0 then p.unrecognizedPattern else q

end Sys2Proof.Machine
end

