-- ==== Sys2Proof/Machine/Commands.lean ====
section
/-!
DEFINITION. The host commands (46_host_commands.md R254 to R268), one definition each.
-/

namespace Sys2Proof.Machine

/-- `NOP` (46_host_commands.md R254). -/
def execNop (s : State) : Result := accept 0 s

/-- `INIT_DONE` (46_host_commands.md R255). -/
def execInitDone (s : State) : Result :=
  perform (decide (s.mode = .startup))
    (fun s => andThen (loadSpeed s) fun s => accept 0 (enter .default s)) s

/-- `SELECT m` (46_host_commands.md R256). -/
def execSelect (m : BitVec 5) (s : State) : Result :=
  match selectTarget m with
  | some target => perform (decide (s.mode = .default)) (fun s => accept 0 (enter target s)) s
  | none => reject s

/-- What `CONFIRM` does before it leaves the mode (46_host_commands.md R257): in `ADJUST_CS` the speed is saved and
read back. -/
def confirmSave (s : State) : Result :=
  if s.mode = .adjustCs then
    andThen (nvWrite s.cfg.nvSpeedAddr (s.key.speed.setWidth 8) s) loadSpeed
  else .next s

/-- `CONFIRM` (46_host_commands.md R257). -/
def execConfirm (s : State) : Result :=
  match confirmTarget s.mode with
  | some target => andThen (confirmSave s) fun s => accept 0 (enter target s)
  | none => reject s

/-- What `CANCEL` does before it leaves the mode (46_host_commands.md R258): in `ADJUST_CS` the unsaved adjustment is
dropped. -/
def cancelRestore (s : State) : Result := if s.mode = .adjustCs then loadSpeed s else .next s

/-- `CANCEL` (46_host_commands.md R258). -/
def execCancel (s : State) : Result :=
  perform s.mode.cancellable
    (fun s => andThen (cancelRestore s) fun s => accept 0 (enter .default s)) s

/-- `MEM_DONE` (46_host_commands.md R259). -/
def execMemDone (s : State) : Result :=
  perform (decide (s.mode = .memSendTx) && !s.pb.active) (fun s => accept 0 (enter .default s)) s

/-- `FAULT code` (46_host_commands.md R260). -/
def execFault (code : BitVec 8) (s : State) : Result :=
  perform (decide (s.mode ≠ .error)) (fun s => accept 0 (raiseFault code s)) s

/-- `SET_SPEED s` (46_host_commands.md R261). -/
def execSetSpeed (speed : BitVec 5) (s : State) : Result :=
  perform (decide (s.mode = .adjustCs) && speedLegal s.cfg speed) (fun s => accept 0 (writeSpeed speed s)) s

/-- `SET_KEYMODE k` (46_host_commands.md R262). -/
def execSetKeymode (k : BitVec 1) (s : State) : Result :=
  perform (decide (s.mode = .startup ∨ s.mode = .default))
    (fun s => accept 0 (keyReset { s with key := { s.key with mode := keyModeOf k } })) s

/-- `SET_BEACON b` (46_host_commands.md R263). -/
def execSetBeacon (b : BitVec 1) (s : State) : Result :=
  perform (decide (s.mode ≠ .error))
    (fun s => accept 0 { s with beacon := beaconOf b, beaconT0 := s.tcount }) s

/-- `SET_MEMIDX i` (46_host_commands.md R264). -/
def execSetMemidx (idx : BitVec 8) (s : State) : Result :=
  perform (decide (s.mode ≠ .memSendTx) && decide (s.mode ≠ .error) && slotLegal s.cfg idx)
    (fun s => accept 0 { s with memTxIndex := idx }) s

/-- Load a pattern into the playback feeder, or report it done at once (46_host_commands.md R265). -/
def loadPattern (p : Byte) (s : State) : State :=
  if 2 ≤ p.toNat then
    { s with pb := { pat := p, rem := BitVec.ofNat 3 (patternLength p), active := true } }
  else flag .pbDone s

/-- `PLAY c` (46_host_commands.md R265). -/
def execPlay (c : BitVec 7) (s : State) : Result :=
  perform (decide (s.mode = .memSendTx) && !s.pb.active)
    (fun s => accept 0 (loadPattern (patternOf s.cfg c) s)) s

/-- `DRAIN_ENC` (46_host_commands.md R266). -/
def execDrainEnc (s : State) : Result := accept (s.encoderValue.signExtend 16) { s with encoderValue := 0 }

/-- `ACK mask` (46_host_commands.md R267). -/
def execAck (mask : BitVec 12) (s : State) : Result := accept 0 { s with evflags := s.evflags &&& ~~~mask }

/-- The reserved opcode 0xE (46_host_commands.md R268): whatever its operand bits, the word is rejected. -/
def execReservedE (_x : BitVec 12) (s : State) : Result := reject s

/-- The reserved opcode 0xF (46_host_commands.md R268): whatever its operand bits, the word is rejected. -/
def execReservedF (_x : BitVec 12) (s : State) : Result := reject s

end Sys2Proof.Machine
end

