-- ==== Sys2Proof/Machine/IambicKey.lean ====
section
/-!
DEFINITION. The iambic keyer (43_iambic_key_decoder.md).
-/

namespace Sys2Proof.Machine

/-- The `key.last` of an element (10_state.md R35). -/
def lastOf : Element → LastElement
  | .dot => .dot
  | .dash => .dash

/-- The event of an element start (30_encoding.md R86). -/
def eventOf : Element → Event
  | .dot => .dot
  | .dash => .dash

/-- The duration of an element (43_iambic_key_decoder.md R155). -/
def durationOf (k : KeyState) : Element → BitVec 16
  | .dot => k.dotTime
  | .dash => k.dashTime

/-- `Start(x, pd, ps)` (43_iambic_key_decoder.md R155): both latches are cleared, then the paddle opposite to the
element is remembered if it is closed in this tick. -/
def startElement (x : Element) (pd ps : Bool) (s : State) : State :=
  emit (eventOf x) { s with key := { s.key with
    dot := decide (x = .dash) && pd
    dash := decide (x = .dot) && ps
    timeout := false
    last := lastOf x
    keyDown := true
    phase := .element
    timer := durationOf s.key x } }

/-- The choice of `TryStart` (43_iambic_key_decoder.md R156) from what is wanted, the last element and
`SQUEEZE_FIRST`. -/
def chooseElement (first : Element) (last : LastElement) (wd ws : Bool) : Option Element :=
  match wd, ws with
  | true, false => some .dot
  | false, true => some .dash
  | true, true =>
    match last with
    | .dot => some .dash
    | .dash => some .dot
    | .none => some first
  | false, false => none

/-- `TryStart(pd, ps)` (43_iambic_key_decoder.md R156): the state with the element started, or none. -/
def tryStart (pd ps : Bool) (s : State) : Option State :=
  match chooseElement s.cfg.squeezeFirst s.key.last (pd || s.key.dot) (ps || s.key.dash) with
  | some x => some (startElement x pd ps s)
  | none => none

/-- The memory rule during an element: the opposite paddle is remembered (43_iambic_key_decoder.md R157). -/
def latchOpposite (pd ps : Bool) (s : State) : State :=
  { s with key := { s.key with
      dash := s.key.dash || (decide (s.key.last = .dot) && ps)
      dot := s.key.dot || (decide (s.key.last = .dash) && pd) } }

/-- `key.timer <- key.timer - 1` (43_iambic_key_decoder.md R157 to R159). -/
def countDown (s : State) : State := { s with key := { s.key with timer := s.key.timer - 1 } }

/-- `PhaseElement(pd, ps)` (43_iambic_key_decoder.md R157). -/
def phaseElement (pd ps : Bool) (s : State) : State :=
  let s := countDown (latchOpposite pd ps s)
  if s.key.timer = 0 then
    emit .eoe { s with key := { s.key with keyDown := false, phase := .gap, timer := s.key.dotTime } }
  else s

/-- `PhaseGap(pd, ps)` (43_iambic_key_decoder.md R158). -/
def phaseGap (pd ps : Bool) (s : State) : State :=
  let s := countDown s
  if s.key.timer = 0 then
    match tryStart pd ps s with
    | some t => t
    | none => { s with key := { s.key with phase := .wait, timer := s.key.dashTime } }
  else s

/-- `PhaseWait(pd, ps)` (43_iambic_key_decoder.md R159). -/
def phaseWait (pd ps : Bool) (s : State) : State :=
  match tryStart pd ps s with
  | some t => t
  | none =>
    let s := countDown s
    if s.key.timer = 0 then
      emit .eoc { s with key := { s.key with timeout := true, phase := .idle, last := .none } }
    else s

/-- `PhaseIdle(pd, ps)` (43_iambic_key_decoder.md R160). -/
def phaseIdle (pd ps : Bool) (s : State) : State :=
  match tryStart pd ps s with
  | some t => t
  | none => s

/-- `K.IAMBIC(pd, ps)` (43_iambic_key_decoder.md R154): one phase rule, chosen by `key.phase` at the start. -/
def execKIambic (pd ps : Bool) (s : State) : Result :=
  .next (
    match s.key.phase with
    | .element => phaseElement pd ps s
    | .gap => phaseGap pd ps s
    | .wait => phaseWait pd ps s
    | .idle => phaseIdle pd ps s)

end Sys2Proof.Machine
end

