-- ==== Sys2Proof/Machine/Playback.lean ====
section
/-!
DEFINITION. The playback feeder (45_morse_codec_playback.md R235 to R237).
-/

namespace Sys2Proof.Machine

/-- `VirtualPaddles()` (45_morse_codec_playback.md R236): the pair `(vd, vs)`. -/
def virtualPaddles (s : State) : Bool × Bool :=
  if s.pb.active = true ∧ s.pb.rem ≠ 0 then
    let b := s.pb.pat.getLsbD (s.pb.rem.toNat - 1)
    (!b, b)
  else (false, false)

/-- `P.FEED` (45_morse_codec_playback.md R237). -/
def execPFeed (s : State) : Result :=
  let s :=
    if s.pb.active = true ∧ s.ev.isElement = true then { s with pb := { s.pb with rem := s.pb.rem - 1 } } else s
  .next (
    if s.pb.active = true ∧ s.ev = .eoc then flag .pbDone { s with pb := { s.pb with active := false } } else s)

end Sys2Proof.Machine
end

