-- ==== Sys2Proof/Machine/Sampler.lean ====
section
/-!
DEFINITION. The debounce sampler's sub-operations (41_debounce_sampler.md).
-/

namespace Sys2Proof.Machine

/-- One line of `S.DEBOUNCE` (41_debounce_sampler.md R121): the new `db[i]` and `cnt[i]`. -/
def debounceLine (n : Nat) (raw db : Bool) (cnt : Nat) : Bool × Nat :=
  if raw = db then (db, 0)
  else if cnt + 1 = n then (raw, 0)
  else (db, cnt + 1)

/-- `S.DEBOUNCE(raw)` (41_debounce_sampler.md R121), each line independently. -/
def execSDebounce (raw : Lines Bool) (s : State) : Result :=
  let line := fun i => debounceLine s.cfg.debounceN (raw.get i) (s.db.get i) (s.cnt.get i)
  .next { s with
    locals := { s.locals with old := s.db }
    db := .tabulate fun i => (line i).1
    cnt := .tabulate fun i => (line i).2 }

/-- Whether a debounced line rose in this tick step: `db[i] = 1 and old[i] = 0`. -/
def rose (i : Line) (s : State) : Bool := s.db.get i && !s.locals.old.get i

/-- `S.EDGE` (41_debounce_sampler.md R122). -/
def execSEdge (s : State) : Result :=
  .next (flagIf (rose .keyerBtn s) .keyerPress
    (flagIf (rose .ritBtn s) .ritPress
      (flagIf (rose .encBtn s) .encBtnPress s)))

/-- `min(+1, encoder_value + 1)` in two's complement of 2 bits (41_debounce_sampler.md R123). -/
def encoderUp (v : BitVec 2) : BitVec 2 := if v = 1 then 1 else v + 1

/-- `max(-2, encoder_value - 1)` in two's complement of 2 bits (41_debounce_sampler.md R123). -/
def encoderDown (v : BitVec 2) : BitVec 2 := if v = 2 then 2 else v - 1

/-- `S.QDEC` (41_debounce_sampler.md R123). -/
def execSQdec (s : State) : Result :=
  .next { s with
    encoderValue :=
      if s.encoderLastClock = true ∧ s.db.encA = false then
        (if s.db.encB then encoderUp s.encoderValue else encoderDown s.encoderValue)
      else s.encoderValue
    encoderLastClock := s.db.encA }

/-- The arming half of `S.RITLONG` (41_debounce_sampler.md R124). -/
def ritArm (s : State) : State :=
  let s := if rose .ritBtn s then { s with ritT0 := s.tcount, ritArmed := true } else s
  if s.db.ritBtn then s else { s with ritArmed := false }

/-- `S.RITLONG` (41_debounce_sampler.md R124). -/
def execSRitlong (s : State) : Result :=
  let s := ritArm s
  .next (if s.cfg.eraseEn && s.db.ritBtn && s.ritArmed && due s.ritT0 s.cfg.ritLongTicks s then
      { flag .ritLong s with ritArmed := false }
    else s)

end Sys2Proof.Machine
end

