-- ==== Sys2Proof/Machine/Scheduler.lean ====
section
/-!
DEFINITION. The tick scheduler's sub-operations `T.COUNT` and `T.BLINK` (40_tick_scheduler.md).
-/

namespace Sys2Proof.Machine

/-- `T.COUNT` (40_tick_scheduler.md R102). -/
def execTCount (s : State) : Result :=
  .next { s with tcount := tickCount s.cfg.tcountW (s.tcount.toNat + 1) }

/-- The blink phases of a tick count (40_tick_scheduler.md R104): `blink[k] = tcount[BLINK_BIT_k]`. -/
def blinkOf (p : Config.Params) (t : Word) : BitVec 3 :=
  BitVec.ofBool (t.getLsbD p.blinkBit2) ++ BitVec.ofBool (t.getLsbD p.blinkBit1) ++
    BitVec.ofBool (t.getLsbD p.blinkBit0)

/-- `T.BLINK` (40_tick_scheduler.md R104): derives the blink phases, which the model records (log 8). -/
def execTBlink (s : State) : Result := .next { s with blink := blinkOf s.cfg s.tcount }

end Sys2Proof.Machine
end

