-- ==== Sys2Proof/Machine/Sequencer.lean ====
section
/-!
DEFINITION. The automatic transitions of the mode sequencer (44_mode_sequencer.md R195, R197).
-/

namespace Sys2Proof.Machine

/-- The transition a key event causes (44_mode_sequencer.md R195), if any. -/
def autoTarget (s : State) : Option Mode :=
  if s.mode = .default ∧ s.ev.isActivity = true then some .keying
  else if s.mode = .keying ∧ (s.ev = .eoc ∨ (s.key.mode = .straight ∧ s.ev = .eoe)) then some .default
  else none

/-- `Q.AUTO` (44_mode_sequencer.md R195). -/
def execQAuto (s : State) : Result :=
  match autoTarget s with
  | some m => .next { enter m s with locals := { s.locals with transitioned := true } }
  | none => .next { s with locals := { s.locals with transitioned := false } }

/-- Whether the beacon fires in this tick step (44_mode_sequencer.md R197). -/
def beaconFires (s : State) : Bool :=
  !s.locals.transitioned && decide (s.mode = .default) && decide (s.ev = .none) && s.beacon &&
    due s.beaconT0 (s.cfg.beaconInterval * s.key.dotTime.toNat) s

/-- `Q.BEACON` (44_mode_sequencer.md R197). -/
def execQBeacon (s : State) : Result := .next (if beaconFires s then enter .memSendTx s else s)

end Sys2Proof.Machine
end

