-- ==== Sys2Proof/Machine/StraightKey.lean ====
section
/-!
DEFINITION. The straight-key decoder (42_straight_key_decoder.md).
-/

namespace Sys2Proof.Machine

/-- `K.STRAIGHT(c)` (42_straight_key_decoder.md R141). -/
def execKStraight (c : Bool) (s : State) : Result :=
  .next (
    if c = true ∧ s.key.keyDown = false then
      emit .start { s with key := { s.key with keyDown := true } }
    else if c = false ∧ s.key.keyDown = true then
      emit .eoe { s with key := { s.key with keyDown := false } }
    else s)

end Sys2Proof.Machine
end

