-- ==== Sys2Proof/Machine/Dispatch.lean ====
section
/-! DEFINITION. The meaning of every operation, one arm per row of `spec/opcode_table.json`. -/

namespace Sys2Proof.Machine

def exec (i : Instr) (s : State) : Host.Outcome State Fault Refusal :=
  match i with
  | .nop => Sys2Proof.Machine.execNop s
  | .initDone => Sys2Proof.Machine.execInitDone s
  | .select m => Sys2Proof.Machine.execSelect m s
  | .confirm => Sys2Proof.Machine.execConfirm s
  | .cancel => Sys2Proof.Machine.execCancel s
  | .memDone => Sys2Proof.Machine.execMemDone s
  | .fault code => Sys2Proof.Machine.execFault code s
  | .setSpeed speed => Sys2Proof.Machine.execSetSpeed speed s
  | .setKeymode k => Sys2Proof.Machine.execSetKeymode k s
  | .setBeacon b => Sys2Proof.Machine.execSetBeacon b s
  | .setMemidx idx => Sys2Proof.Machine.execSetMemidx idx s
  | .play c => Sys2Proof.Machine.execPlay c s
  | .drainEnc => Sys2Proof.Machine.execDrainEnc s
  | .ack mask => Sys2Proof.Machine.execAck mask s
  | .reservedE x => Sys2Proof.Machine.execReservedE x s
  | .reservedF x => Sys2Proof.Machine.execReservedF x s
  | .tCount => Sys2Proof.Machine.execTCount s
  | .sDebounce raw => Sys2Proof.Machine.execSDebounce raw s
  | .sEdge => Sys2Proof.Machine.execSEdge s
  | .sQdec => Sys2Proof.Machine.execSQdec s
  | .sRitlong => Sys2Proof.Machine.execSRitlong s
  | .kStraight c => Sys2Proof.Machine.execKStraight c s
  | .kIambic pd ps => Sys2Proof.Machine.execKIambic pd ps s
  | .pFeed => Sys2Proof.Machine.execPFeed s
  | .qAuto => Sys2Proof.Machine.execQAuto s
  | .qBeacon => Sys2Proof.Machine.execQBeacon s
  | .tBlink => Sys2Proof.Machine.execTBlink s

end Sys2Proof.Machine
end

