-- ==== Sys2Proof/Machine/Ports.lean ====
section
/-!
DEFINITION. What the outside sees: the read port (10_state.md R41 to R44, 46_host_commands.md R270) and the outputs
that are functions of the state (10_state.md R47, 44_mode_sequencer.md R202).
-/

namespace Sys2Proof.Machine

/-- Register `INPUTS` (10_state.md R42). -/
def regInputs (s : State) : BitVec 10 :=
  BitVec.ofBool s.encoderLastClock ++ s.encoderValue ++ BitVec.ofBool s.db.dash ++ BitVec.ofBool s.db.dot ++
    BitVec.ofBool s.db.keyerBtn ++ BitVec.ofBool s.db.ritBtn ++ BitVec.ofBool s.db.encBtn ++
    BitVec.ofBool s.db.encB ++ BitVec.ofBool s.db.encA

/-- Register `KEY` (10_state.md R43). -/
def regKey (k : KeyState) : BitVec 14 :=
  k.last.code ++ k.phase.code ++ BitVec.ofBool k.keyDown ++ k.speed ++ BitVec.ofBool k.dash ++
    BitVec.ofBool k.dot ++ BitVec.ofBool k.timeout ++ k.mode.code

/-- Register `RIG` (10_state.md R41): bits 7:1 read 0. -/
def regRig (s : State) : BitVec 16 := s.memTxIndex ++ (0 : BitVec 7) ++ BitVec.ofBool s.beacon

/-- Register `PB` (10_state.md R41). -/
def regPb (s : State) : BitVec 12 := BitVec.ofBool s.pb.active ++ s.pb.rem ++ s.pb.pat

/-- The read port (10_state.md R41): every bit not listed reads 0, and so do the reserved numbers 14 and 15. A read
changes no state (46_host_commands.md R270). -/
def readReg (n : BitVec 4) (s : State) : Word :=
  match n.toNat with
  | 0 => s.tcount
  | 1 => (regInputs s).setWidth 32
  | 2 => (regKey s.key).setWidth 32
  | 3 => s.key.dotTime.setWidth 32
  | 4 => s.key.dashTime.setWidth 32
  | 5 => s.key.timer.setWidth 32
  | 6 => s.mode.tag.setWidth 32
  | 7 => (regRig s).setWidth 32
  | 8 => s.evflags.setWidth 32
  | 9 => s.errcode.setWidth 32
  | 10 => (regPb s).setWidth 32
  | 11 => s.beaconT0
  | 12 => s.ritT0
  | 13 => (BitVec.ofBool s.ritArmed).setWidth 32
  | _ => 0

/-- The output `key_down` (10_state.md R47). -/
def keyDownOut (s : State) : Bool := s.key.keyDown

/-- The output `tx_en` (44_mode_sequencer.md R202). -/
def txEn (s : State) : Bool := (s.mode.txKey && s.key.keyDown) || decide (s.mode = .tune)

/-- The output `st_en` (44_mode_sequencer.md R202). -/
def stEn (s : State) : Bool := s.key.keyDown && decide (s.mode ≠ .error)

/-- The output `ev` (10_state.md R45). -/
def evOut (s : State) : BitVec 3 := s.ev.code

/-- The output `mode` (10_state.md R47). -/
def modeOut (s : State) : BitVec 5 := s.mode.tag

/-- The output `blink` (10_state.md R47): a function of `tcount`, and no register. -/
def blinkOut (s : State) : BitVec 3 := blinkOf s.cfg s.tcount

/-- The output `cmd_ok` (10_state.md R47): 0 after a reset (vector Z1); no value in another cycle that takes no command
(log 6). -/
def cmdOkOut (s : State) : Option Bool := s.answer.map Answer.ok

/-- The output `cmd_rsp` (10_state.md R47): 0 after a reset (vector Z1); no value in another cycle that takes no command
(log 6). -/
def cmdRspOut (s : State) : Option (BitVec 16) := s.answer.map Answer.rsp

/-- The output `nv_re` (10_state.md R47): the cycle just performed reads persistent storage (log 7). -/
def nvReOut (s : State) : Bool := s.bus.any fun a =>
  match a with
  | .read _ _ => true
  | .write _ _ => false
  | .rest => false

/-- The output `nv_we` (10_state.md R47): the cycle just performed writes persistent storage (log 7). -/
def nvWeOut (s : State) : Bool := s.bus.any fun a =>
  match a with
  | .read _ _ => false
  | .write _ _ => true
  | .rest => false

/-- The address an access drives (20_memory.md R75); 0 at rest after a reset. -/
def NvAccess.addr : NvAccess → Nat
  | .rest => 0
  | .read a _ => a
  | .write a _ => a

/-- The byte an access drives on `nv_wdata` (20_memory.md R75): a read drives none; 0 at rest after a reset. -/
def NvAccess.wdata : NvAccess → Option Byte
  | .rest => some 0
  | .read _ _ => none
  | .write _ v => some v

/-- The output `nv_addr` (10_state.md R47): the address of the cycle's accesses, always `NV_SPEED_ADDR` (20_memory.md
R75); 0 after a reset (vector Z1); no value in another cycle without an access (log 7). -/
def nvAddrOut (s : State) : Option Nat := s.bus.head?.map NvAccess.addr

/-- The output `nv_wdata` (10_state.md R47): the byte the cycle writes (20_memory.md R75); 0 after a reset (vector Z1); no
value in another cycle without a write (log 7). -/
def nvWdataOut (s : State) : Option Byte := s.bus.findSome? NvAccess.wdata

/-- The input-port levels of the coming clock cycle (10_state.md R46): the scheduled ones, or free (log 3). -/
def pins (s : State) : Config.Pins := s.schedule.headD (Config.freePins s.cycle)

/-- Whether the tick strobe fires in the coming clock cycle: `presc` wraps to 0 in it (40_tick_scheduler.md R100). -/
def strobe (s : State) : Bool := decide (s.cfg.tickDiv ≤ s.presc + 1)

/-- The output `cmd_ready` in the coming clock cycle (46_host_commands.md R250, 70_reset_and_hazards.md R300). -/
def cmdReady (s : State) : Bool := !(pins s).rst && !strobe s

/-- The output `rd_data` in the coming clock cycle (10_state.md R41, R270). -/
def rdDataOut (s : State) : Word := readReg (pins s).rdAddr s

end Sys2Proof.Machine
end

