-- ==== Sys2Proof/Machine/Cycle.lean ====
section
/-!
DEFINITION. The two atomic steps, the tick step (40_tick_scheduler.md R101) and the command step (46_host_commands.md
R251), and the clock cycle that performs at most one of them (60_exceptions.md R286, 70_reset_and_hazards.md R300).
-/

namespace Sys2Proof.Machine

/-- Line 7 of the tick step (40_tick_scheduler.md R101): the key step that `mode` and `key.mode` select. -/
def keyStep (s : State) : Result :=
  if s.mode.physKey then
    match s.key.mode with
    | .straight => exec (.kStraight s.db.dot) s
    | .iambic => exec (.kIambic s.db.dot s.db.dash) s
  else if s.mode = .memSendTx then
    andThen (exec (.kIambic (virtualPaddles s).1 (virtualPaddles s).2) s) fun s => exec .pFeed s
  else .next s

/-- The temporaries return to idle at the end of the tick step (log 9). -/
def clearLocals (s : State) : State := { s with locals := .idle }

/-- `TickStep(raw)` (40_tick_scheduler.md R101): the eleven lines, in order. -/
def tickStep (raw : Lines Bool) (s : State) : Result :=
  andThen (exec .tCount s) fun s =>
  andThen (exec (.sDebounce raw) s) fun s =>
  andThen (exec .sEdge s) fun s =>
  andThen (exec .sQdec s) fun s =>
  andThen (exec .sRitlong s) fun s =>
  andThen (keyStep (clearEvent s)) fun s =>
  andThen (exec .qAuto (flagEvent s)) fun s =>
  andThen (exec .qBeacon s) fun s =>
  andThen (exec .tBlink s) fun s =>
  .next (clearLocals s)

/-- `CommandStep(w)` (46_host_commands.md R251): a word no row of the opcode map matches is rejected. -/
def commandStep (w : BitVec 16) (s : State) : Result :=
  match decode w with
  | .ok i => exec i s
  | .error _ => reject s

/-- The state a clock cycle's step acts on: the cycle's input levels are used up, and no command has been answered and
no storage accessed in this cycle yet. -/
def beginCycle (s : State) : State :=
  { s with schedule := s.schedule.tail, cycle := s.cycle + 1, answer := none, bus := [] }

/-- One clock cycle: `rst` beats the tick step, which beats the command step (60_exceptions.md R286, 70_reset_and_hazards.md
R300, 40_tick_scheduler.md R100, 46_host_commands.md R250; log 2). -/
def clockCycle (s : State) : Result :=
  let p := pins s
  let t := beginCycle s
  if p.rst then .next (hwReset t)
  else if strobe s then tickStep p.raw { t with presc := 0 }
  else if p.cmdValid then commandStep p.cmd { t with presc := s.presc + 1 }
  else .next { t with presc := s.presc + 1 }

/-- A command word offered in the coming clock cycle: its levels on `rst`, `cmd_valid` and `cmd`. -/
def offer (w : BitVec 16) (s : State) : State :=
  { s with schedule := { pins s with rst := false, cmdValid := true, cmd := w } :: s.schedule.tail }

/-- A strobe due in the coming clock cycle would keep the command waiting (46_host_commands.md R250): the prescaler
as it stands just after one. -/
def clearStrobe (s : State) : State := if strobe s then { s with presc := 0 } else s

end Sys2Proof.Machine
end

