-- ==== Sys2Proof/Machine/Step.lean ====
section
/-!
DEFINITION. The machine's step, one clock cycle (log 2), and the command word that the next step takes.
-/

namespace Sys2Proof.Machine

/-- One step of the machine: one clock cycle. -/
def step (s : State) : Host.Outcome State Fault Refusal := clockCycle s

/-- The state with that command word offered by the host in the coming clock cycle, which is no strobe cycle, so that
the next step takes it; unchanged where the table gives the row no word (log 3, log 10). -/
def State.withFetchWord (s : State) (nbits w : Nat) : State :=
  match tableWord nbits w with
  | some word => offer word (clearStrobe s)
  | none => s

end Sys2Proof.Machine
end

