-- ==== Sys2Proof/WellFormed.lean ====
section
/-!
DEFINITION. Which operations have a legal operand (30_encoding.md R82, R89): the check that needs no machine state
but the instance's parameters.
-/

namespace Sys2Proof

/-- Whether the operand is among the legal operand values of 30_encoding.md R82. The must-be-zero bits of R82 are
no part of an `Instr`: the decoder refuses a word that sets one. A reserved opcode is never legal (R89, R268). -/
def Instr.wellFormed (p : Config.Params) : Instr → Bool
  | .nop => true
  | .initDone => true
  | .select m => [3, 4, 5, 6, 7, 9, 12].contains m.toNat
  | .confirm => true
  | .cancel => true
  | .memDone => true
  | .fault _ => true
  | .setSpeed s => decide (p.keyMinSpeed ≤ s.toNat) && decide (s.toNat ≤ p.keyMaxSpeed)
  | .setKeymode _ => true
  | .setBeacon _ => true
  | .setMemidx i => decide (i.toNat < p.memSlots)
  | .play _ => true
  | .drainEnc => true
  | .ack _ => true
  | .reservedE _ => false
  | .reservedF _ => false
  | .tCount => true
  | .sDebounce _ => true
  | .sEdge => true
  | .sQdec => true
  | .sRitlong => true
  | .kStraight _ => true
  | .kIambic _ _ => true
  | .pFeed => true
  | .qAuto => true
  | .qBeacon => true
  | .tBlink => true

end Sys2Proof
end

