-- ==== Sys2Proof/Safety.lean ====
section
/-!
DEFINITION. The terms the claims use: the invariants of 10_state.md R51, the legality matrix of 46_host_commands.md R252,
the states a command leaves, and what a run of key steps emits.
-/

namespace Sys2Proof.Safety

open Sys2Proof.Machine

/-! ## The invariants -/

/-- The invariants of 10_state.md R51, items 1 to 10 (item 11 is about two states), with what makes them inductive:
the parameters meet 00_scope.md R7, tick counts fit `TCOUNT_W`, `presc` counts below `TICK_DIV`, a latch set during
playback is the element the feeder shows (45_morse_codec_playback.md R237), storage is canonical, `blink` is the
function of `tcount` that 10_state.md R47 says, and the tick step's temporaries are idle. -/
structure Inv (s : State) : Prop where
  cfg : s.cfg.Valid
  presc : s.presc < s.cfg.tickDiv
  tcount : s.tcount.toNat < 2 ^ s.cfg.tcountW
  ritT0 : s.ritT0.toNat < 2 ^ s.cfg.tcountW
  beaconT0 : s.beaconT0.toNat < 2 ^ s.cfg.tcountW
  /-- Item 1. -/
  speedLow : s.cfg.keyMinSpeed ≤ s.key.speed.toNat
  speedHigh : s.key.speed.toNat ≤ s.cfg.keyMaxSpeed
  dotTime : s.key.dotTime.toNat = s.cfg.dotNum / s.key.speed.toNat
  dashTime : s.key.dashTime.toNat = 3 * s.key.dotTime.toNat
  /-- Item 2. -/
  lastNone : s.key.phase = .idle ↔ s.key.last = .none
  /-- Item 3. -/
  timerIdle : s.key.phase = .idle → s.key.timer = 0
  timerLow : s.key.phase ≠ .idle → 1 ≤ s.key.timer.toNat
  timerHigh : s.key.timer.toNat ≤ 3 * (s.cfg.dotNum / s.cfg.keyMinSpeed)
  /-- Item 4. -/
  elementDown : s.key.phase = .element → s.key.keyDown = true
  downElement : (s.key.mode = .iambic ∨ s.mode = .memSendTx) → s.key.keyDown = true → s.key.phase = .element
  straightIdle : s.key.mode = .straight → s.mode ≠ .memSendTx → s.key.phase = .idle
  /-- Item 5. -/
  oneLatch : ¬ (s.key.dot = true ∧ s.key.dash = true)
  dotLatch : s.key.dot = true → s.key.last = .dash ∧ (s.key.phase = .element ∨ s.key.phase = .gap)
  dashLatch : s.key.dash = true → s.key.last = .dot ∧ (s.key.phase = .element ∨ s.key.phase = .gap)
  /-- Item 6. -/
  timeoutIdle : s.key.timeout = true → s.key.phase = .idle
  /-- Item 7. -/
  defaultRest : s.mode = .default → s.key.phase = .idle ∧ s.key.keyDown = false
  /-- Item 8. -/
  otherModesRest : s.mode ∉ [Mode.default, .keying, .adjustCs, .memEnter, .memSendTx] →
    s.key.phase = .idle ∧ s.key.keyDown = false ∧ s.key.timer = 0 ∧ s.key.dot = false ∧ s.key.dash = false ∧
      s.key.timeout = false
  /-- Item 9 (`pb_rem <= 7` is the width of the field). -/
  playing : s.pb.active = true → s.mode = .memSendTx ∧ 2 ≤ s.pb.pat.toNat
  notPlaying : s.mode = .memSendTx → s.pb.active = false → s.key.phase = .idle
  /-- A latch set during playback is the element the feeder shows. -/
  feedDot : s.pb.active = true → s.key.dot = true → s.pb.rem ≠ 0 ∧ s.pb.pat.getLsbD (s.pb.rem.toNat - 1) = false
  feedDash : s.pb.active = true → s.key.dash = true → s.pb.rem ≠ 0 ∧ s.pb.pat.getLsbD (s.pb.rem.toNat - 1) = true
  /-- Item 10 (`mode <= 16` and the range of `encoder_value` are the types of the fields). -/
  cnt : ∀ i : Line, s.cnt.get i < s.cfg.debounceN
  memTxIndex : s.memTxIndex.toNat < s.cfg.memSlots
  blink : s.blink = blinkOf s.cfg s.tcount
  nv : s.nv.wf = true
  locals : s.locals = .idle

/-! ## What a command step leaves -/

/-- A command taken and performed, with its response value (46_host_commands.md R251). -/
def answered (rsp : BitVec 16) (s : State) : State := { s with answer := some { ok := true, rsp := rsp } }

/-- A command rejected (46_host_commands.md R253): bit 11 of `EVFLAGS` is set and the answer is `(0, 0)`. -/
def rejected (s : State) : State :=
  { s with evflags := s.evflags ||| 0x800#12, answer := some { ok := false, rsp := 0 } }

/-- The key engine at rest with its settings kept (43_iambic_key_decoder.md R153). -/
def atRest (k : KeyState) : KeyState :=
  { mode := k.mode, timeout := false, dot := false, dash := false, speed := k.speed, dotTime := k.dotTime
    dashTime := k.dashTime, timer := 0#16, phase := .idle, last := .none, keyDown := false }

/-- The mode entered by a transition other than `DEFAULT` to `KEYING` (44_mode_sequencer.md R196). -/
def entered (m : Mode) (s : State) : State :=
  { s with
    mode := m
    key := atRest s.key
    pb := { pat := 0#8, rem := 0#3, active := false }
    beaconT0 := if m = .default then s.tcount else s.beaconT0
    evflags := if m = .memSendTx then s.evflags ||| 0x400#12 else s.evflags }

/-- The speed set with the two durations of 43_iambic_key_decoder.md R151. -/
def withSpeed (v : BitVec 5) (s : State) : State :=
  { s with key := { s.key with
      speed := v
      dotTime := BitVec.ofNat 16 (s.cfg.dotNum / v.toNat)
      dashTime := BitVec.ofNat 16 (3 * (s.cfg.dotNum / v.toNat)) } }

/-- The speed a stored byte stands for (46_host_commands.md R269). -/
def storedSpeed (p : Config.Params) (b : Byte) : BitVec 5 :=
  if p.keyMinSpeed ≤ b.toNat ∧ b.toNat ≤ p.keyMaxSpeed then b.setWidth 5 else BitVec.ofNat 5 p.defaultSpeed

/-- The modes in which a command is legal: the rows of 46_host_commands.md R252. -/
def legalModes : Instr → List Mode
  | .nop | .drainEnc | .ack _ =>
    [.startup, .default, .keying, .adjustCs, .tune, .changeBand, .dfe, .memSendWait, .memSendTx, .memEnterWait,
      .memEnter, .memEnterReview, .calibrationCorrection, .calibrationPeakIf, .calibrationChangeBand,
      .calibrationPeakRx, .error]
  | .initDone => [.startup]
  | .select _ => [.default]
  | .confirm =>
    [.adjustCs, .tune, .changeBand, .dfe, .memSendWait, .memEnterWait, .memEnter, .memEnterReview,
      .calibrationCorrection, .calibrationPeakIf, .calibrationChangeBand, .calibrationPeakRx]
  | .cancel =>
    [.adjustCs, .tune, .changeBand, .dfe, .memSendWait, .memSendTx, .memEnterWait, .memEnter, .memEnterReview,
      .calibrationCorrection, .calibrationPeakIf, .calibrationChangeBand, .calibrationPeakRx]
  | .memDone => [.memSendTx]
  | .fault _ | .setBeacon _ =>
    [.startup, .default, .keying, .adjustCs, .tune, .changeBand, .dfe, .memSendWait, .memSendTx, .memEnterWait,
      .memEnter, .memEnterReview, .calibrationCorrection, .calibrationPeakIf, .calibrationChangeBand,
      .calibrationPeakRx]
  | .setSpeed _ => [.adjustCs]
  | .setKeymode _ => [.startup, .default]
  | .setMemidx _ =>
    [.startup, .default, .keying, .adjustCs, .tune, .changeBand, .dfe, .memSendWait, .memEnterWait, .memEnter,
      .memEnterReview, .calibrationCorrection, .calibrationPeakIf, .calibrationChangeBand, .calibrationPeakRx]
  | .play _ => [.memSendTx]
  | .reservedE _ | .reservedF _ => []
  | .tCount | .sDebounce _ | .sEdge | .sQdec | .sRitlong | .kStraight _ | .kIambic _ _ | .pFeed | .qAuto | .qBeacon
  | .tBlink => []

/-- The two cells of 46_host_commands.md R252 with a condition: `MEM_DONE` and `PLAY` need `pb_active = 0`. -/
def needsIdlePlayback : Instr → Bool
  | .memDone | .play _ => true
  | .nop | .initDone | .select _ | .confirm | .cancel | .fault _ | .setSpeed _ | .setKeymode _ | .setBeacon _
  | .setMemidx _ | .drainEnc | .ack _ | .reservedE _ | .reservedF _ | .tCount | .sDebounce _ | .sEdge | .sQdec
  | .sRitlong | .kStraight _ | .kIambic _ _ | .pFeed | .qAuto | .qBeacon | .tBlink => false

/-- Whether a command is accepted in a state: its operand is legal (30_encoding.md R82) and it is legal in the mode
and playback state (46_host_commands.md R252). -/
def accepted (i : Instr) (s : State) : Bool :=
  i.wellFormed s.cfg && (legalModes i).contains s.mode && !(needsIdlePlayback i && s.pb.active)

/-! ## The choice and the start of an element -/

/-- The element `TryStart(pd, ps)` chooses (43_iambic_key_decoder.md R156): with one kind wanted, that kind; with both,
the opposite of the last element, or `SQUEEZE_FIRST` if there is none. -/
def chosen (pd ps : Bool) (s : State) : Option Element :=
  let wd := pd = true ∨ s.key.dot = true
  let ws := ps = true ∨ s.key.dash = true
  if wd ∧ ¬ ws then some .dot
  else if ¬ wd ∧ ws then some .dash
  else if wd ∧ ws then
    (if s.key.last = .dot then some .dash
     else if s.key.last = .dash then some .dot
     else some s.cfg.squeezeFirst)
  else none

/-- The state in which element `x` has just been started (43_iambic_key_decoder.md R155). -/
def started (x : Element) (pd ps : Bool) (s : State) : State :=
  match x with
  | .dot => { s with ev := .dot, key := { s.key with
      dot := false, dash := ps, timeout := false, last := .dot, keyDown := true, phase := .element
      timer := s.key.dotTime } }
  | .dash => { s with ev := .dash, key := { s.key with
      dot := pd, dash := false, timeout := false, last := .dash, keyDown := true, phase := .element
      timer := s.key.dashTime } }

/-- The bit of `EVFLAGS` that mirrors an event (30_encoding.md R86). -/
def eventBit : Event → BitVec 12
  | .none => 0x000
  | .start => 0x001
  | .dot => 0x002
  | .dash => 0x004
  | .eoe => 0x008
  | .eoc => 0x010

/-! ## Runs of key steps and of tick steps -/

/-- One iambic key step as a tick step makes it: `ev` is cleared first (40_tick_scheduler.md R101). -/
def keyTick (paddles : Bool × Bool) (s : State) : State :=
  match exec (.kIambic paddles.1 paddles.2) { s with ev := .none } with
  | .next t => t
  | .fault _ => s
  | .refused _ => s

/-- The state after `n` iambic key steps, step `k` on the paddles `p k`. -/
def keyAfter (p : Nat → Bool × Bool) : Nat → State → State
  | 0, s => s
  | n + 1, s => keyTick (p n) (keyAfter p n s)

/-- The event that key step `k` emits (00_scope.md R13: "an event at tick k"). -/
def keyEvent (p : Nat → Bool × Bool) (k : Nat) (s : State) : Event := (keyAfter p (k + 1) s).ev

/-- The state a tick step leaves (40_tick_scheduler.md R101). -/
def tickOn (raw : Lines Bool) (s : State) : State :=
  match tickStep raw s with
  | .next t => t
  | .fault _ => s
  | .refused _ => s

/-- The state after `n` tick steps, step `k` on the raw lines `raw k`. -/
def ticksAfter (raw : Nat → Lines Bool) : Nat → State → State
  | 0, s => s
  | n + 1, s => tickOn (raw n) (ticksAfter raw n s)

/-- The event that tick step `k` emits (00_scope.md R13). -/
def tickEvent (raw : Nat → Lines Bool) (k : Nat) (s : State) : Event := (ticksAfter raw (k + 1) s).ev

/-- The events of a character, tick by tick (43_iambic_key_decoder.md R166): each element with the gap after it, then
the character gap. -/
def timeline (d a : Nat) : List Element → List Event
  | [] => List.replicate a .none ++ [.eoc]
  | .dot :: xs => .dot :: List.replicate (d - 1) .none ++ (.eoe :: List.replicate (d - 1) .none) ++ timeline d a xs
  | .dash :: xs => .dash :: List.replicate (a - 1) .none ++ (.eoe :: List.replicate (d - 1) .none) ++ timeline d a xs

end Sys2Proof.Safety
end

