-- ==== Sys2Proof/Certificates/Slice0/Obligations.lean ====
section
/-!
DEFINITION. The statements about the model. Each docstring names the rule of spec/ it formalises, or says that the
clause is the model's own and names its log entry.
-/

open Sys2Proof Sys2Proof.Machine Sys2Proof.Safety

/-! ## Encoding (30_encoding.md) -/

/-- Decode and encode agree (R81 to R83): every host command has a word, and the word decodes to the command. -/
def Obligations.DecodeOfEncodedCommand : Prop :=
  ∀ i : Instr, i.isCommand = true → ∃ w, encode i = some w ∧ decode w = .ok i

/-- Each word has one meaning (R83): a word that decodes to a command is that command's word, so no bit is dropped. -/
def Obligations.EncodeOfDecodedWord : Prop :=
  ∀ (w : BitVec 16) (i : Instr), decode w = .ok i → encode i = some w

/-- The opcode map of R83: no word selects two rows, and a word decodes exactly if it selects a row. -/
def Obligations.OpcodeMapDisjointAndComplete : Prop :=
  (opcodeMap.Pairwise fun a b =>
    ∀ w : BitVec 16, ¬ (w &&& a.mask = a.pattern ∧ w &&& b.mask = b.pattern)) ∧
  ∀ w : BitVec 16, (∃ i, decode w = .ok i) ↔ ∃ row ∈ opcodeMap, w &&& row.mask = row.pattern

/-- Reserved opcodes (R268): any word 0xE000 to 0xFFFF is rejected, and so are the two operations it decodes to. -/
def Obligations.ReservedWordsRejected : Prop :=
  (∀ (w : BitVec 16) (s : State), 0xE000 ≤ w.toNat → commandStep w s = .next (rejected s)) ∧
  ∀ (x : BitVec 12) (s : State),
    exec (.reservedE x) s = .next (rejected s) ∧ exec (.reservedF x) s = .next (rejected s)

/-- A word that sets a must-be-zero operand bit selects no row and is rejected (R82, R89), never treated as another
command. -/
def Obligations.MalformedWordsRejected : Prop :=
  ∀ (w : BitVec 16) (s : State), (∀ row ∈ opcodeMap, w &&& row.mask ≠ row.pattern) →
    commandStep w s = .next (rejected s)

/-- Words of the spec's worked examples and vectors (46_host_commands.md R255 to R267; 95_test_vectors.md). -/
def Obligations.SampleWordsDecode : Prop :=
  decode 0x0000 = .ok .nop ∧ decode 0x1000 = .ok .initDone ∧ decode 0x2003 = .ok (.select 3) ∧
  decode 0x3000 = .ok .confirm ∧ decode 0x4000 = .ok .cancel ∧ decode 0x5000 = .ok .memDone ∧
  decode 0x6007 = .ok (.fault 7) ∧ decode 0x7019 = .ok (.setSpeed 25) ∧ decode 0x8001 = .ok (.setKeymode 1) ∧
  decode 0x9001 = .ok (.setBeacon 1) ∧ decode 0xA001 = .ok (.setMemidx 1) ∧ decode 0xB04B = .ok (.play 75) ∧
  decode 0xC000 = .ok .drainEnc ∧ decode 0xD200 = .ok (.ack 0x200) ∧ decode 0xF123 = .ok (.reservedF 0x123)

/-! ## The steps -/

/-- A step runs the decoded command: when a command is taken in a clock cycle (R250) and its word decodes to `i`, the
step is `exec i` on the state with the prescaler counted on and the cycle's inputs used up. That one step is one clock
cycle, with its input levels in a schedule, is the model's form (log 2, log 3), and so are the fields that hold the
cycle's answer and storage accesses, empty when it begins (log 6, log 7). -/
def Obligations.StepRunsTheTakenCommand : Prop :=
  ∀ (s : State) (i : Instr), (pins s).rst = false → s.presc + 1 < s.cfg.tickDiv → (pins s).cmdValid = true →
    decode (pins s).cmd = .ok i →
    step s = exec i { s with
      presc := s.presc + 1, schedule := s.schedule.tail, cycle := s.cycle + 1, answer := none, bus := [] }

/-- Who gets a clock cycle (R250, R286, R300, R100): reset, else the tick step in the cycle in which `presc` wraps,
else the command offered, else nothing; `cmd_ready` is 0 exactly in the first two. That one step is one clock cycle,
with its input levels in a schedule, is the model's form (log 2, log 3). The clauses that fix `answer` at none in a
cycle that takes no command state the model's choice of log 6, and those that fix `bus` rest on the model's record of
accesses (log 7). -/
def Obligations.ResetBeatsTickBeatsCommand : Prop :=
  ∀ s : State,
    ((pins s).rst = true →
      cmdReady s = false ∧
      step s = .next (State.resetWith s.cfg s.nv s.schedule.tail (s.cycle + 1))) ∧
    ((pins s).rst = false → s.presc + 1 = s.cfg.tickDiv →
      cmdReady s = false ∧
      step s = tickStep (pins s).raw { s with
        presc := 0, schedule := s.schedule.tail, cycle := s.cycle + 1, answer := none, bus := [] }) ∧
    ((pins s).rst = false → s.presc + 1 < s.cfg.tickDiv → (pins s).cmdValid = true →
      cmdReady s = true ∧
      step s = commandStep (pins s).cmd { s with
        presc := s.presc + 1, schedule := s.schedule.tail, cycle := s.cycle + 1, answer := none, bus := [] }) ∧
    ((pins s).rst = false → s.presc + 1 < s.cfg.tickDiv → (pins s).cmdValid = false →
      cmdReady s = true ∧
      step s = .next { s with
        presc := s.presc + 1, schedule := s.schedule.tail, cycle := s.cycle + 1, answer := none, bus := [] })

/-- The tick step of R101: the sub-operations in their order, the key step that `mode` and `key.mode` select, and the
event's sticky flag; the model's two temporaries return to idle (log 9). -/
def Obligations.TickStepOrder : Prop :=
  ∀ (raw : Lines Bool) (s : State), ∃ s1 s2 s3 s4 s5 s6 s7 s8 s9 : State,
    exec .tCount s = .next s1 ∧
    exec (.sDebounce raw) s1 = .next s2 ∧
    exec .sEdge s2 = .next s3 ∧
    exec .sQdec s3 = .next s4 ∧
    exec .sRitlong s4 = .next s5 ∧
    (s5.mode ∈ [Mode.default, .keying, .adjustCs, .memEnter] → s5.key.mode = .straight →
      exec (.kStraight s5.db.dot) { s5 with ev := .none } = .next s6) ∧
    (s5.mode ∈ [Mode.default, .keying, .adjustCs, .memEnter] → s5.key.mode = .iambic →
      exec (.kIambic s5.db.dot s5.db.dash) { s5 with ev := .none } = .next s6) ∧
    (s5.mode = .memSendTx →
      ∃ t, exec (.kIambic (virtualPaddles s5).1 (virtualPaddles s5).2) { s5 with ev := .none } = .next t ∧
        exec .pFeed t = .next s6) ∧
    (s5.mode ∉ [Mode.default, .keying, .adjustCs, .memEnter, .memSendTx] → s6 = { s5 with ev := .none }) ∧
    exec .qAuto { s6 with evflags := s6.evflags ||| eventBit s6.ev } = .next s7 ∧
    exec .qBeacon s7 = .next s8 ∧
    exec .tBlink s8 = .next s9 ∧
    tickStep raw s = .next { s9 with locals := { old := .all false, transitioned := false } }

/-! ## Host commands (46_host_commands.md) -/

/-- `NOP` (R254): legal always, does nothing; a word 0x0xxx with a non-zero operand is rejected. -/
def Obligations.NopDoesNothing : Prop :=
  ∀ s : State,
    exec .nop s = .next (answered 0 s) ∧
    commandStep 0x0000 s = .next (answered 0 s) ∧
    ∀ arg : BitVec 12, arg ≠ 0 → commandStep (commandWord 0x0 arg) s = .next (rejected s)

/-- `INIT_DONE` (R255): in `STARTUP` the stored speed, or the default for a byte out of range, is loaded with its
durations, and `DEFAULT` is entered with the key engine at rest and `beacon_t0` taken; in any other mode it is
rejected. The record of the storage access is the model's form (log 7), and so is the stop where the parameters put
the speed byte outside storage (log 5). -/
def Obligations.InitDoneLoadsSpeedAndEntersDefault : Prop :=
  ∀ s : State,
    commandStep 0x1000 s = exec .initDone s ∧
    (s.mode = .startup → s.cfg.nvSpeedAddr < s.cfg.nvSize →
      exec .initDone s = .next (answered 0 (entered .default
        (withSpeed (storedSpeed s.cfg (s.nv.read s.cfg.nvSpeedAddr))
          { s with bus := s.bus ++ [.read s.cfg.nvSpeedAddr (s.nv.read s.cfg.nvSpeedAddr)] })))) ∧
    (s.mode = .startup → s.cfg.nvSize ≤ s.cfg.nvSpeedAddr →
      exec .initDone s = .fault (.nvOutOfRange s.cfg.nvSpeedAddr)) ∧
    (s.mode ≠ .startup → exec .initDone s = .next (rejected s))

/-- `SELECT m` (R256): in `DEFAULT` it enters the mode of tag `m` if `m` is one of the seven; else it is rejected. -/
def Obligations.SelectEntersTheSelectedMode : Prop :=
  ∀ (m : BitVec 5) (s : State),
    commandStep (0x2000 ||| m.setWidth 16) s = exec (.select m) s ∧
    (∀ target : Mode,
      (m.toNat, target) ∈ [(3, Mode.adjustCs), (4, .tune), (5, .changeBand), (6, .dfe), (7, .memSendWait),
        (9, .memEnterWait), (12, .calibrationCorrection)] →
      s.mode = .default → exec (.select m) s = .next (answered 0 (entered target s))) ∧
    (s.mode ≠ .default ∨ m.toNat ∉ [3, 4, 5, 6, 7, 9, 12] → exec (.select m) s = .next (rejected s))

/-- `CONFIRM` (R257): the next mode of each mode that has one, with `PB_REQ` raised on entry to `MEM_SEND_TX`; in
`ADJUST_CS` the speed is written to storage and read back first; rejected in the five other modes. The record of the
storage accesses is the model's form (log 7), and so is the stop for a speed byte outside storage (log 5). -/
def Obligations.ConfirmAdvances : Prop :=
  ∀ s : State,
    commandStep 0x3000 s = exec .confirm s ∧
    (∀ target : Mode,
      (s.mode, target) ∈ [(Mode.tune, Mode.default), (.changeBand, .default), (.dfe, .default),
        (.memSendWait, .memSendTx), (.memEnterWait, .memEnter), (.memEnter, .memEnterReview),
        (.memEnterReview, .default), (.calibrationCorrection, .calibrationPeakIf),
        (.calibrationPeakIf, .calibrationChangeBand), (.calibrationChangeBand, .calibrationPeakRx),
        (.calibrationPeakRx, .default)] →
      exec .confirm s = .next (answered 0 (entered target s))) ∧
    (s.mode = .adjustCs → s.cfg.nvSpeedAddr < s.cfg.nvSize →
      exec .confirm s = .next (answered 0 (entered .default
        (withSpeed (storedSpeed s.cfg (s.key.speed.setWidth 8))
          { s with
            nv := s.nv.write s.cfg.nvSpeedAddr (s.key.speed.setWidth 8)
            bus := s.bus ++ [.write s.cfg.nvSpeedAddr (s.key.speed.setWidth 8),
              .read s.cfg.nvSpeedAddr (s.key.speed.setWidth 8)] })))) ∧
    (s.mode = .adjustCs → s.cfg.nvSize ≤ s.cfg.nvSpeedAddr →
      exec .confirm s = .fault (.nvOutOfRange s.cfg.nvSpeedAddr)) ∧
    (s.mode ∈ [Mode.startup, .default, .keying, .memSendTx, .error] → exec .confirm s = .next (rejected s))

/-- `CANCEL` (R258): in every mode but `STARTUP`, `DEFAULT`, `KEYING` and `ERROR` it enters `DEFAULT`; from `ADJUST_CS`
the stored speed is loaded first; in those four modes it is rejected. The record of the storage access is the model's
form (log 7), and so is the stop for a speed byte outside storage (log 5). -/
def Obligations.CancelReturnsToDefault : Prop :=
  ∀ s : State,
    commandStep 0x4000 s = exec .cancel s ∧
    (s.mode ∉ [Mode.startup, .default, .keying, .error, .adjustCs] →
      exec .cancel s = .next (answered 0 (entered .default s))) ∧
    (s.mode = .adjustCs → s.cfg.nvSpeedAddr < s.cfg.nvSize →
      exec .cancel s = .next (answered 0 (entered .default
        (withSpeed (storedSpeed s.cfg (s.nv.read s.cfg.nvSpeedAddr))
          { s with bus := s.bus ++ [.read s.cfg.nvSpeedAddr (s.nv.read s.cfg.nvSpeedAddr)] })))) ∧
    (s.mode = .adjustCs → s.cfg.nvSize ≤ s.cfg.nvSpeedAddr →
      exec .cancel s = .fault (.nvOutOfRange s.cfg.nvSpeedAddr)) ∧
    (s.mode ∈ [Mode.startup, .default, .keying, .error] → exec .cancel s = .next (rejected s))

/-- `MEM_DONE` (R259): legal only in `MEM_SEND_TX` with `pb_active = 0`; it enters `DEFAULT`. -/
def Obligations.MemDoneReturnsToDefault : Prop :=
  ∀ s : State,
    commandStep 0x5000 s = exec .memDone s ∧
    (s.mode = .memSendTx → s.pb.active = false → exec .memDone s = .next (answered 0 (entered .default s))) ∧
    (s.mode ≠ .memSendTx ∨ s.pb.active = true → exec .memDone s = .next (rejected s))

/-- `FAULT code` (R260) takes the Fault exception (R283): the code is saved, `ERROR` is entered with the key engine at
rest and the playback dropped, and the outputs drop; in `ERROR` it is rejected. -/
def Obligations.FaultEntersError : Prop :=
  ∀ (code : BitVec 8) (s : State),
    commandStep (0x6000 ||| code.setWidth 16) s = exec (.fault code) s ∧
    (s.mode ≠ .error →
      exec (.fault code) s = .next (answered 0 (entered .error { s with errcode := code })) ∧
      txEn (answered 0 (entered .error { s with errcode := code })) = false ∧
      stEn (answered 0 (entered .error { s with errcode := code })) = false ∧
      keyDownOut (answered 0 (entered .error { s with errcode := code })) = false) ∧
    (s.mode = .error → exec (.fault code) s = .next (rejected s))

/-- `SET_SPEED s` (R261): in `ADJUST_CS`, for a speed in range, the speed and the two durations are written and
nothing else (`key.timer` is not touched, storage is not written); else it is rejected. -/
def Obligations.SetSpeedWritesSpeedAndDurations : Prop :=
  ∀ (v : BitVec 5) (s : State),
    commandStep (0x7000 ||| v.setWidth 16) s = exec (.setSpeed v) s ∧
    (s.mode = .adjustCs → s.cfg.keyMinSpeed ≤ v.toNat → v.toNat ≤ s.cfg.keyMaxSpeed →
      exec (.setSpeed v) s = .next (answered 0 (withSpeed v s))) ∧
    (s.mode ≠ .adjustCs ∨ v.toNat < s.cfg.keyMinSpeed ∨ s.cfg.keyMaxSpeed < v.toNat →
      exec (.setSpeed v) s = .next (rejected s))

/-- `SET_KEYMODE k` (R262): legal only in `STARTUP` and `DEFAULT`; it selects the keyer and resets the key engine. -/
def Obligations.SetKeymodeSelectsTheKeyer : Prop :=
  ∀ (k : BitVec 1) (s : State),
    commandStep (0x8000 ||| k.setWidth 16) s = exec (.setKeymode k) s ∧
    (s.mode = .startup ∨ s.mode = .default →
      exec (.setKeymode k) s = .next (answered 0
        { s with key := { atRest s.key with mode := if k = 1 then .straight else .iambic } })) ∧
    (s.mode ≠ .startup → s.mode ≠ .default → exec (.setKeymode k) s = .next (rejected s))

/-- `SET_BEACON b` (R263): legal in every mode except `ERROR`; it writes `beacon` and re-takes `beacon_t0`. -/
def Obligations.SetBeaconRetakesTheOrigin : Prop :=
  ∀ (b : BitVec 1) (s : State),
    commandStep (0x9000 ||| b.setWidth 16) s = exec (.setBeacon b) s ∧
    (s.mode ≠ .error →
      exec (.setBeacon b) s = .next (answered 0 { s with beacon := decide (b = 1), beaconT0 := s.tcount })) ∧
    (s.mode = .error → exec (.setBeacon b) s = .next (rejected s))

/-- `SET_MEMIDX i` (R264): legal in every mode except `MEM_SEND_TX` and `ERROR`, and only for `i < MEM_SLOTS`. -/
def Obligations.SetMemidxSelectsTheSlot : Prop :=
  ∀ (i : BitVec 8) (s : State),
    commandStep (0xA000 ||| i.setWidth 16) s = exec (.setMemidx i) s ∧
    (s.mode ≠ .memSendTx → s.mode ≠ .error → i.toNat < s.cfg.memSlots →
      exec (.setMemidx i) s = .next (answered 0 { s with memTxIndex := i })) ∧
    (s.mode = .memSendTx ∨ s.mode = .error ∨ s.cfg.memSlots ≤ i.toNat →
      exec (.setMemidx i) s = .next (rejected s))

/-- `PLAY c` (R265): legal only in `MEM_SEND_TX` with `pb_active = 0`. A pattern with at least one element is loaded
with its length; for the patterns 0 and 1 `PB_DONE` is raised at once. -/
def Obligations.PlayLoadsThePattern : Prop :=
  ∀ (c : BitVec 7) (s : State),
    commandStep (0xB000 ||| c.setWidth 16) s = exec (.play c) s ∧
    (s.mode = .memSendTx → s.pb.active = false →
      (∀ n : Nat, 1 ≤ n → 2 ^ n ≤ (patternOf s.cfg c).toNat → (patternOf s.cfg c).toNat < 2 ^ (n + 1) →
        exec (.play c) s = .next (answered 0
          { s with pb := { pat := patternOf s.cfg c, rem := BitVec.ofNat 3 n, active := true } })) ∧
      ((patternOf s.cfg c).toNat < 2 →
        exec (.play c) s = .next (answered 0 { s with evflags := s.evflags ||| 0x200#12 }))) ∧
    (s.mode ≠ .memSendTx ∨ s.pb.active = true → exec (.play c) s = .next (rejected s))

/-- `DRAIN_ENC` (R266): legal always; it answers `encoder_value` sign-extended to 16 bits and clears it, and it is the
only command with a non-zero response. -/
def Obligations.DrainEncReturnsAndClears : Prop :=
  (∀ s : State,
    commandStep 0xC000 s = exec .drainEnc s ∧
    ∃ r : BitVec 16, r.toInt = s.encoderValue.toInt ∧
      exec .drainEnc s = .next (answered r { s with encoderValue := 0 })) ∧
  ∀ (i : Instr) (s t : State) (a : Answer), i.isCommand = true → i ≠ .drainEnc → exec i s = .next t →
    t.answer = some a → a.rsp = 0

/-- `ACK mask` (R267): legal always; it clears exactly the named flags. -/
def Obligations.AckClearsExactlyTheNamedFlags : Prop :=
  ∀ (mask : BitVec 12) (s : State),
    commandStep (0xD000 ||| mask.setWidth 16) s = exec (.ack mask) s ∧
    exec (.ack mask) s = .next (answered 0 { s with evflags := s.evflags &&& ~~~mask })

/-! ## Tick sub-operations -/

/-- `T.COUNT` (40_tick_scheduler.md R102): the counter is incremented modulo `2^TCOUNT_W` and nothing else changes. -/
def Obligations.TCountIncrementsAndWraps : Prop :=
  ∀ s : State,
    exec .tCount s = .next { s with tcount := BitVec.ofNat 32 ((s.tcount.toNat + 1) % 2 ^ s.cfg.tcountW) } ∧
    (s.tcount.toNat = 2 ^ s.cfg.tcountW - 1 → exec .tCount s = .next { s with tcount := 0 })

/-- `S.DEBOUNCE(raw)` (41_debounce_sampler.md R121): each line independently, by the three branches of the rule; the
old values are kept for this step's later sub-operations (log 9), and nothing else changes. -/
def Obligations.DebounceFlipsAfterNSamples : Prop :=
  ∀ (raw : Lines Bool) (s : State), ∃ t : State,
    exec (.sDebounce raw) s = .next t ∧
    t = { s with db := t.db, cnt := t.cnt, locals := { s.locals with old := s.db } } ∧
    ∀ i : Line,
      (raw.get i = s.db.get i → t.db.get i = s.db.get i ∧ t.cnt.get i = 0) ∧
      (raw.get i ≠ s.db.get i → s.cnt.get i + 1 = s.cfg.debounceN →
        t.db.get i = raw.get i ∧ t.cnt.get i = 0) ∧
      (raw.get i ≠ s.db.get i → s.cnt.get i + 1 ≠ s.cfg.debounceN →
        t.db.get i = s.db.get i ∧ t.cnt.get i = s.cnt.get i + 1)

/-- `S.EDGE` (41_debounce_sampler.md R122): bits 5, 6, 7 of `EVFLAGS` for the three buttons whose debounced value rose
in this tick step. -/
def Obligations.EdgeRaisesPressFlags : Prop :=
  ∀ s : State, exec .sEdge s = .next { s with evflags :=
    s.evflags |||
      (if s.db.encBtn = true ∧ s.locals.old.encBtn = false then 0x020#12 else 0#12) |||
      (if s.db.ritBtn = true ∧ s.locals.old.ritBtn = false then 0x040#12 else 0#12) |||
      (if s.db.keyerBtn = true ∧ s.locals.old.keyerBtn = false then 0x080#12 else 0#12) }

/-- `S.QDEC` (41_debounce_sampler.md R123): on a falling edge of A the signed count moves by one towards the side B
gives and saturates at +1 and -2; the last clock follows A. -/
def Obligations.QdecCountsAndSaturates : Prop :=
  ∀ s : State, ∃ v : BitVec 2,
    exec .sQdec s = .next { s with encoderValue := v, encoderLastClock := s.db.encA } ∧
    v.toInt =
      if s.encoderLastClock = true ∧ s.db.encA = false then
        (if s.db.encB = true then min 1 (s.encoderValue.toInt + 1) else max (-2) (s.encoderValue.toInt - 1))
      else s.encoderValue.toInt

/-- `S.RITLONG` (41_debounce_sampler.md R124): the press is timed from its rise, and the flag is raised once, when the
signed difference reaches the limit while the button is down, armed, and the feature enabled. -/
def Obligations.RitLongRaisedOncePerPress : Prop :=
  ∀ s : State,
    let rise : Prop := s.db.ritBtn = true ∧ s.locals.old.ritBtn = false
    let t0 : Word := if rise then s.tcount else s.ritT0
    let armed : Prop := s.db.ritBtn = true ∧ (rise ∨ s.ritArmed = true)
    let long : Prop := s.cfg.eraseEn = true ∧ armed ∧ (s.cfg.ritLongTicks : Int) ≤ sdiff s.cfg.tcountW s.tcount t0
    exec .sRitlong s = .next { s with
      ritT0 := t0
      ritArmed := decide (armed ∧ ¬ long)
      evflags := if long then s.evflags ||| 0x100#12 else s.evflags }

/-- `K.STRAIGHT(c)` (42_straight_key_decoder.md R141): the key line follows the contact, `START` on closing, `EOE` on
opening; `key.key_down` and `ev` are all it writes. -/
def Obligations.StraightKeyFollowsTheContact : Prop :=
  ∀ (c : Bool) (s : State),
    (c = true → s.key.keyDown = false →
      exec (.kStraight c) s = .next { s with ev := .start, key := { s.key with keyDown := true } }) ∧
    (c = false → s.key.keyDown = true →
      exec (.kStraight c) s = .next { s with ev := .eoe, key := { s.key with keyDown := false } }) ∧
    (c = s.key.keyDown → exec (.kStraight c) s = .next s)

/-- `K.IAMBIC` at rest (43_iambic_key_decoder.md R160, R156, R155): the chosen element is started in this tick step;
with none wanted nothing changes. -/
def Obligations.IambicIdleStep : Prop :=
  ∀ (pd ps : Bool) (s : State), s.key.phase = .idle →
    (∀ x : Element, chosen pd ps s = some x → exec (.kIambic pd ps) s = .next (started x pd ps s)) ∧
    (chosen pd ps s = none → exec (.kIambic pd ps) s = .next s)

/-- `K.IAMBIC` during an element (43_iambic_key_decoder.md R157): the opposite paddle is remembered, the timer counts
down, and the step that makes it 0 ends the element with `EOE` and loads the gap. -/
def Obligations.IambicElementStep : Prop :=
  ∀ (pd ps : Bool) (s : State), s.key.phase = .element →
    let dash : Bool := s.key.dash || (decide (s.key.last = .dot) && ps)
    let dot : Bool := s.key.dot || (decide (s.key.last = .dash) && pd)
    (2 ≤ s.key.timer.toNat →
      exec (.kIambic pd ps) s = .next { s with key := { s.key with
        dot := dot, dash := dash, timer := BitVec.ofNat 16 (s.key.timer.toNat - 1) } }) ∧
    (s.key.timer.toNat = 1 →
      exec (.kIambic pd ps) s = .next { s with ev := .eoe, key := { s.key with
        dot := dot, dash := dash, timer := s.key.dotTime, phase := .gap, keyDown := false } })

/-- `K.IAMBIC` during the gap (43_iambic_key_decoder.md R158): the paddles are not looked at until the decision instant;
there the chosen element is started, or the character-gap watch begins. -/
def Obligations.IambicGapStep : Prop :=
  ∀ (pd ps : Bool) (s : State), s.key.phase = .gap →
    (2 ≤ s.key.timer.toNat →
      exec (.kIambic pd ps) s = .next { s with key := { s.key with
        timer := BitVec.ofNat 16 (s.key.timer.toNat - 1) } }) ∧
    (∀ x : Element, s.key.timer.toNat = 1 → chosen pd ps s = some x →
      exec (.kIambic pd ps) s = .next (started x pd ps s)) ∧
    (s.key.timer.toNat = 1 → chosen pd ps s = none →
      exec (.kIambic pd ps) s = .next { s with key := { s.key with phase := .wait, timer := s.key.dashTime } })

/-- `K.IAMBIC` in the character-gap watch (43_iambic_key_decoder.md R159): a wanted element starts at once, also in the
tick in which the countdown would end; else the countdown runs, and its end emits `EOC` and sets `key.timeout`. -/
def Obligations.IambicWaitStep : Prop :=
  ∀ (pd ps : Bool) (s : State), s.key.phase = .wait →
    (∀ x : Element, chosen pd ps s = some x → exec (.kIambic pd ps) s = .next (started x pd ps s)) ∧
    (chosen pd ps s = none → 2 ≤ s.key.timer.toNat →
      exec (.kIambic pd ps) s = .next { s with key := { s.key with
        timer := BitVec.ofNat 16 (s.key.timer.toNat - 1) } }) ∧
    (chosen pd ps s = none → s.key.timer.toNat = 1 →
      exec (.kIambic pd ps) s = .next { s with ev := .eoc, key := { s.key with
        timer := 0, timeout := true, phase := .idle, last := .none } })

/-- `P.FEED` (45_morse_codec_playback.md R237): an element start consumes one element, the end of character ends the
playback with `PB_DONE`; with no playback or another event nothing changes. -/
def Obligations.FeedConsumesElements : Prop :=
  ∀ s : State,
    (s.pb.active = true → s.ev = .dot ∨ s.ev = .dash → s.pb.rem ≠ 0 →
      exec .pFeed s = .next { s with pb := { s.pb with rem := BitVec.ofNat 3 (s.pb.rem.toNat - 1) } }) ∧
    (s.pb.active = true → s.ev = .eoc →
      exec .pFeed s = .next { s with pb := { s.pb with active := false }, evflags := s.evflags ||| 0x200#12 }) ∧
    (s.pb.active = false ∨ (s.ev ≠ .dot ∧ s.ev ≠ .dash ∧ s.ev ≠ .eoc) → exec .pFeed s = .next s)

/-- `Q.AUTO` (44_mode_sequencer.md R195): paddle activity moves `DEFAULT` to `KEYING` without a key reset; the end of a
character, or of a straight-key element, moves `KEYING` to `DEFAULT`; else only the transition mark (log 9) is
written. -/
def Obligations.AutoFollowsKeyEvents : Prop :=
  ∀ s : State,
    (s.mode = .default → s.ev ∈ [Event.start, .dot, .dash] →
      exec .qAuto s = .next { s with
        mode := .keying, pb := { pat := 0, rem := 0, active := false }
        locals := { s.locals with transitioned := true } }) ∧
    (s.mode = .keying → s.ev = .eoc ∨ (s.key.mode = .straight ∧ s.ev = .eoe) →
      exec .qAuto s = .next { entered .default s with locals := { s.locals with transitioned := true } }) ∧
    (¬ (s.mode = .default ∧ s.ev ∈ [Event.start, .dot, .dash]) →
      ¬ (s.mode = .keying ∧ (s.ev = .eoc ∨ (s.key.mode = .straight ∧ s.ev = .eoe))) →
      exec .qAuto s = .next { s with locals := { s.locals with transitioned := false } })

/-- `Q.BEACON` (44_mode_sequencer.md R197): in `DEFAULT`, with the beacon on, no event and no transition in this step,
it enters `MEM_SEND_TX` once the interval has elapsed; else nothing changes. -/
def Obligations.BeaconFiresAfterTheInterval : Prop :=
  ∀ s : State,
    let fires : Prop := s.locals.transitioned = false ∧ s.mode = .default ∧ s.ev = .none ∧ s.beacon = true ∧
      ((s.cfg.beaconInterval * s.key.dotTime.toNat : Nat) : Int) ≤ sdiff s.cfg.tcountW s.tcount s.beaconT0
    (fires → exec .qBeacon s = .next (entered .memSendTx s)) ∧
    (¬ fires → exec .qBeacon s = .next s)

/-- `T.BLINK` (40_tick_scheduler.md R104): each blink phase is the selected bit of `tcount`; nothing else changes. The
output is a function of `tcount` in every state (10_state.md R47); that `T.BLINK` records the phases in a field is the
model's form (log 8). -/
def Obligations.BlinkShowsCounterBits : Prop :=
  ∀ s : State,
    exec .tBlink s = .next { s with blink := blinkOut s } ∧
    (blinkOut s).getLsbD 0 = s.tcount.getLsbD s.cfg.blinkBit0 ∧
    (blinkOut s).getLsbD 1 = s.tcount.getLsbD s.cfg.blinkBit1 ∧
    (blinkOut s).getLsbD 2 = s.tcount.getLsbD s.cfg.blinkBit2

/-! ## The codec (45_morse_codec_playback.md) -/

/-- `Pattern(c)` (R233, R234): a non-zero digit abbreviation where the feature is on, else the table's entry; for a
character with neither, the unrecognised pattern. -/
def Obligations.PatternSelection : Prop :=
  ∀ (p : Config.Params) (c : BitVec 7),
    (p.obscureAbbrev = true → 48 ≤ c.toNat → c.toNat ≤ 57 → p.digitAbbrev.getD (c.toNat - 48) 0 ≠ 0 →
      patternOf p c = p.digitAbbrev.getD (c.toNat - 48) 0) ∧
    (p.obscureAbbrev = false ∨ c.toNat < 48 ∨ 57 < c.toNat ∨ p.digitAbbrev.getD (c.toNat - 48) 0 = 0 →
      patternOf p c = if morseTable c = 0 then p.unrecognizedPattern else morseTable c)

/-- The pattern ROM holds International Morse for `A` to `Z`, `0` to `9` and `?`, and nothing else. R231 marks these
values as general knowledge, not in source (93_implementation_defined.md GK1, GK2; log 14): the table is the spec's
inference and the model's choice, checked here against the Morse of each character. -/
def Obligations.TableIsInternationalMorse : Prop :=
  let h : Element := .dash
  let o : Element := .dot
  let letters : List (List Element) := [
    [o, h], [h, o, o, o], [h, o, h, o], [h, o, o], [o], [o, o, h, o], [h, h, o], [o, o, o, o], [o, o], [o, h, h, h],
    [h, o, h], [o, h, o, o], [h, h], [h, o], [h, h, h], [o, h, h, o], [h, h, o, h], [o, h, o], [o, o, o], [h],
    [o, o, h], [o, o, o, h], [o, h, h], [h, o, o, h], [h, o, h, h], [h, h, o, o]]
  let digits : List (List Element) := [
    [h, h, h, h, h], [o, h, h, h, h], [o, o, h, h, h], [o, o, o, h, h], [o, o, o, o, h],
    [o, o, o, o, o], [h, o, o, o, o], [h, h, o, o, o], [h, h, h, o, o], [h, h, h, h, o]]
  (∀ k : Fin 26, letters[k.val]? = some (encodePattern (morseTable (BitVec.ofNat 7 (65 + k.val)))) ∧
    morseTable (BitVec.ofNat 7 (65 + k.val)) ≠ 0) ∧
  (∀ k : Fin 10, digits[k.val]? = some (encodePattern (morseTable (BitVec.ofNat 7 (48 + k.val)))) ∧
    morseTable (BitVec.ofNat 7 (48 + k.val)) ≠ 0) ∧
  encodePattern (morseTable 63) = [o, o, h, h, o, o] ∧
  ∀ c : BitVec 7, ¬ (65 ≤ c.toNat ∧ c.toNat ≤ 90) → ¬ (48 ≤ c.toNat ∧ c.toNat ≤ 57) → c ≠ 63 → morseTable c = 0

/-! ## Reset and the invariants (10_state.md R51, R52) -/

/-- Every step keeps the invariants of R51 (with what makes them inductive, `Safety.Inv`). -/
def Obligations.InvariantsKeptByEveryStep : Prop :=
  ∀ s t : State, Inv s → step s = .next t → Inv t

/-- The invariants hold after reset, for every parameters that meet R7 and every canonical storage contents; in
particular at `State.reset`, whose parameters and contents are the model's choice (log 1, log 4). The outputs after
reset are 0 (70_reset_and_hazards.md R301; 95_test_vectors.md Z1); that those of the command port and the storage port
are read from the answer and the record of accesses is the model's form (log 6, log 7). -/
def Obligations.InvariantsHoldAfterReset : Prop :=
  (∀ (p : Config.Params) (nv : Memory) (schedule : List Config.Pins) (cycle : Nat), p.Valid → nv.wf = true →
    Inv (State.resetWith p nv schedule cycle)) ∧
  Inv State.reset ∧
  ∀ (p : Config.Params) (nv : Memory) (schedule : List Config.Pins) (cycle : Nat),
    let t := State.resetWith p nv schedule cycle
    keyDownOut t = false ∧ txEn t = false ∧ stEn t = false ∧ evOut t = 0 ∧ blinkOut t = 0 ∧ modeOut t = 0 ∧
    cmdOkOut t = some false ∧ cmdRspOut t = some 0 ∧
    nvReOut t = false ∧ nvWeOut t = false ∧ nvAddrOut t = some 0 ∧ nvWdataOut t = some 0

/-- No step stops: with the storage address that R7 requires, every clock cycle answers a next state, whatever the
environment drives. That an access outside storage would stop is the model's choice (log 5). -/
def Obligations.EveryStepCompletes : Prop :=
  ∀ s : State, s.cfg.nvSpeedAddr < s.cfg.nvSize → ∃ t, step s = .next t

/-- Reset (R300) leaves every state element with the value of the table of R52, and persistent storage as it was. -/
def Obligations.ResetRestoresEveryElement : Prop :=
  ∀ s : State, (pins s).rst = true → ∃ t : State, step s = .next t ∧
    t.presc = 0 ∧ t.tcount = 0 ∧
    (∀ i : Line, t.db.get i = false ∧ t.cnt.get i = 0) ∧
    t.encoderValue = 0 ∧ t.encoderLastClock = false ∧ t.ritT0 = 0 ∧ t.ritArmed = false ∧
    t.key.mode = .iambic ∧ t.key.timeout = false ∧ t.key.dot = false ∧ t.key.dash = false ∧
    t.key.speed = BitVec.ofNat 5 s.cfg.defaultSpeed ∧
    t.key.dotTime = BitVec.ofNat 16 (s.cfg.dotNum / s.cfg.defaultSpeed) ∧
    t.key.dashTime = BitVec.ofNat 16 (3 * (s.cfg.dotNum / s.cfg.defaultSpeed)) ∧
    t.key.timer = 0 ∧ t.key.phase = .idle ∧ t.key.last = .none ∧ t.key.keyDown = false ∧
    t.mode = .startup ∧ t.beacon = false ∧ t.memTxIndex = 0 ∧ t.beaconT0 = 0 ∧
    t.pb.pat = 0 ∧ t.pb.rem = 0 ∧ t.pb.active = false ∧ t.errcode = 0 ∧ t.evflags = 0 ∧ t.ev = .none ∧
    t.nv = s.nv

/-! ## Whole-machine rules -/

/-- `ERROR` is a sink (44_mode_sequencer.md R199; R51 item 11): without `rst` a step stays in `ERROR` with `errcode`,
the key engine and the playback untouched and both enables off, and every command but `NOP`, `DRAIN_ENC` and `ACK`
is rejected. -/
def Obligations.ErrorIsLeftOnlyByReset : Prop :=
  ∀ s : State, s.mode = .error →
    ((pins s).rst = false → ∃ t, step s = .next t ∧
      t.mode = .error ∧ t.errcode = s.errcode ∧ t.key = s.key ∧ t.pb = s.pb ∧ txEn t = false ∧ stEn t = false) ∧
    ∀ i : Instr, i.isCommand = true → i ≠ .nop → i ≠ .drainEnc → (∀ mask, i ≠ .ack mask) →
      exec i s = .next (rejected s)

/-- The transition table of 44_mode_sequencer.md R194: an operation that changes the mode makes one of its moves, with
the conditions of its row and column (the beacon's move only when the interval has elapsed, R197), and no operation but
these eight changes it (R191). -/
def Obligations.OnlyTheTabledTransitions : Prop :=
  ∀ (i : Instr) (s t : State), exec i s = .next t → t.mode ≠ s.mode →
    (i = .initDone ∧ s.mode = .startup ∧ t.mode = .default) ∨
    (s.mode = .default ∧
      ∃ m, i = .select m ∧ t.mode.tag = m ∧ m.toNat ∈ [3, 4, 5, 6, 7, 9, 12]) ∨
    (i = .confirm ∧ (s.mode, t.mode) ∈ [(Mode.adjustCs, Mode.default), (.tune, .default), (.changeBand, .default),
      (.dfe, .default), (.memSendWait, .memSendTx), (.memEnterWait, .memEnter), (.memEnter, .memEnterReview),
      (.memEnterReview, .default), (.calibrationCorrection, .calibrationPeakIf),
      (.calibrationPeakIf, .calibrationChangeBand), (.calibrationChangeBand, .calibrationPeakRx),
      (.calibrationPeakRx, .default)]) ∨
    (i = .cancel ∧ s.mode ∉ [Mode.startup, .default, .keying, .error] ∧ t.mode = .default) ∨
    (i = .memDone ∧ s.mode = .memSendTx ∧ s.pb.active = false ∧ t.mode = .default) ∨
    ((∃ code, i = .fault code) ∧ s.mode ≠ .error ∧ t.mode = .error) ∨
    (i = .qAuto ∧ s.mode = .default ∧ s.ev ∈ [Event.start, .dot, .dash] ∧ t.mode = .keying) ∨
    (i = .qAuto ∧ s.mode = .keying ∧ (s.ev = .eoc ∨ (s.key.mode = .straight ∧ s.ev = .eoe)) ∧ t.mode = .default) ∨
    (i = .qBeacon ∧ s.mode = .default ∧ s.beacon = true ∧ s.ev = .none ∧
      ((s.cfg.beaconInterval * s.key.dotTime.toNat : Nat) : Int) ≤ sdiff s.cfg.tcountW s.tcount s.beaconT0 ∧
      t.mode = .memSendTx)

/-- Who writes what (10_state.md R53, with the rules of its elements R21 to R40), for every operation: each element is
unchanged by every operation but its writers; only `ACK` clears a sticky flag, and each flag is raised only by the
operation whose rule raises it (R44, R49). The flags of the five events, bits 0 to 4, are raised by no operation but by
line 8 of the tick step, which `TickStepOrder` states. The clauses on the model's own fields say who writes those:
`cfg` (log 1), `schedule` and `cycle` (log 3), `answer` (log 6), `blink` (log 8) and `locals` (log 9). -/
def Obligations.EachElementHasItsWriters : Prop :=
  ∀ (i : Instr) (s t : State), exec i s = .next t →
    t.cfg = s.cfg ∧ t.presc = s.presc ∧ t.schedule = s.schedule ∧ t.cycle = s.cycle ∧
    (t.tcount ≠ s.tcount → i = .tCount) ∧
    (t.db ≠ s.db ∨ t.cnt ≠ s.cnt → ∃ raw, i = .sDebounce raw) ∧
    (t.encoderLastClock ≠ s.encoderLastClock → i = .sQdec) ∧
    (t.encoderValue ≠ s.encoderValue → i = .sQdec ∨ i = .drainEnc) ∧
    (t.ritT0 ≠ s.ritT0 ∨ t.ritArmed ≠ s.ritArmed → i = .sRitlong) ∧
    (t.key.mode ≠ s.key.mode → ∃ k, i = .setKeymode k) ∧
    (t.key.speed ≠ s.key.speed ∨ t.key.dotTime ≠ s.key.dotTime ∨ t.key.dashTime ≠ s.key.dashTime →
      i = .initDone ∨ i = .confirm ∨ i = .cancel ∨ ∃ v, i = .setSpeed v) ∧
    (t.key.keyDown ≠ s.key.keyDown →
      t.mode ≠ s.mode ∨ (∃ c, i = .kStraight c) ∨ (∃ pd ps, i = .kIambic pd ps) ∨ ∃ k, i = .setKeymode k) ∧
    (t.key.timeout ≠ s.key.timeout ∨ t.key.dot ≠ s.key.dot ∨ t.key.dash ≠ s.key.dash ∨ t.key.timer ≠ s.key.timer ∨
        t.key.phase ≠ s.key.phase ∨ t.key.last ≠ s.key.last →
      t.mode ≠ s.mode ∨ (∃ pd ps, i = .kIambic pd ps) ∨ ∃ k, i = .setKeymode k) ∧
    (t.mode ≠ s.mode →
      i = .initDone ∨ (∃ m, i = .select m) ∨ i = .confirm ∨ i = .cancel ∨ i = .memDone ∨ (∃ code, i = .fault code) ∨
        i = .qAuto ∨ i = .qBeacon) ∧
    (t.beacon ≠ s.beacon → ∃ b, i = .setBeacon b) ∧
    (t.memTxIndex ≠ s.memTxIndex → ∃ x, i = .setMemidx x) ∧
    (t.beaconT0 ≠ s.beaconT0 → (∃ b, i = .setBeacon b) ∨ (s.mode ≠ .default ∧ t.mode = .default)) ∧
    (t.pb ≠ s.pb → t.mode ≠ s.mode ∨ i = .pFeed ∨ ∃ c, i = .play c) ∧
    (t.errcode ≠ s.errcode → ∃ code, i = .fault code) ∧
    (t.ev ≠ s.ev → (∃ c, i = .kStraight c) ∨ ∃ pd ps, i = .kIambic pd ps) ∧
    (t.blink ≠ s.blink → i = .tBlink) ∧
    (t.answer ≠ s.answer → i.isCommand = true) ∧
    (t.locals ≠ s.locals → (∃ raw, i = .sDebounce raw) ∨ i = .qAuto) ∧
    ((∀ mask, i ≠ .ack mask) → s.evflags &&& t.evflags = s.evflags) ∧
    ∀ k : Nat, s.evflags.getLsbD k = false → t.evflags.getLsbD k = true →
      (5 ≤ k ∧ k ≤ 7 ∧ i = .sEdge) ∨
      (k = 8 ∧ i = .sRitlong) ∨
      (k = 9 ∧ (i = .pFeed ∨ ∃ c, i = .play c)) ∨
      (k = 10 ∧ (i = .confirm ∨ i = .qBeacon) ∧ s.mode ≠ .memSendTx ∧ t.mode = .memSendTx) ∨
      (k = 11 ∧ i.isCommand = true ∧ t.answer = some { ok := false, rsp := 0 })

/-- Storage accesses (20_memory.md R75, R67): each operation makes exactly the accesses of the table, in order, and
every byte of storage but the one at `NV_SPEED_ADDR` reads as before; that one reads as before unless `CONFIRM` in
`ADJUST_CS` stored the speed there. The storage port (10_state.md R47) shows them. The record of the accesses, `bus`, and
that the port has no value where it is not driven, are the model's form (log 7). -/
def Obligations.OnlyTheTabledStorageAccesses : Prop :=
  ∀ (i : Instr) (s t : State), exec i s = .next t →
    (t.bus = s.bus ++
      if i = .initDone ∧ s.mode = .startup ∨ i = .cancel ∧ s.mode = .adjustCs then
        [.read s.cfg.nvSpeedAddr (s.nv.read s.cfg.nvSpeedAddr)]
      else if i = .confirm ∧ s.mode = .adjustCs then
        [.write s.cfg.nvSpeedAddr (s.key.speed.setWidth 8), .read s.cfg.nvSpeedAddr (s.key.speed.setWidth 8)]
      else []) ∧
    (∀ a : Nat, a ≠ s.cfg.nvSpeedAddr → t.nv.read a = s.nv.read a) ∧
    (i = .confirm → s.mode = .adjustCs → t.nv.read s.cfg.nvSpeedAddr = s.key.speed.setWidth 8) ∧
    (¬ (i = .confirm ∧ s.mode = .adjustCs) → t.nv = s.nv) ∧
    (s.bus = [] →
      nvAddrOut t =
        (if (i = .initDone ∧ s.mode = .startup) ∨ ((i = .cancel ∨ i = .confirm) ∧ s.mode = .adjustCs) then
          some s.cfg.nvSpeedAddr
        else none) ∧
      nvWdataOut t = (if i = .confirm ∧ s.mode = .adjustCs then some (s.key.speed.setWidth 8) else none) ∧
      nvReOut t = decide (nvAddrOut t ≠ none) ∧ nvWeOut t = decide (nvWdataOut t ≠ none))

/-- A rejected command changes no state but `CMD_REJ` and answers `(0, 0)` (46_host_commands.md R253), for every word;
no command is performed partly (R251). -/
def Obligations.RejectedCommandChangesOnlyItsFlag : Prop :=
  ∀ (w : BitVec 16) (s t : State) (r : BitVec 16), commandStep w s = .next t →
    t.answer = some { ok := false, rsp := r } → t = rejected s

/-- The legality matrix (46_host_commands.md R252 with the operands of 30_encoding.md R82): every command completes, and
is accepted exactly in the cells of the matrix. -/
def Obligations.LegalityMatrix : Prop :=
  ∀ (i : Instr) (s : State), i.isCommand = true → s.cfg.nvSpeedAddr < s.cfg.nvSize →
    ∃ t, exec i s = .next t ∧ t.answer.map Answer.ok = some (accepted i s)

/-- The law of signed differences (40_tick_scheduler.md R103): `n` tick steps after a snapshot, `n` below half the
counter's range, the elapsed count is `n`, wrapped or not. -/
def Obligations.ElapsedIsTheNumberOfTicks : Prop :=
  ∀ (w n : Nat) (t0 : Word), 1 ≤ w → w ≤ 32 → t0.toNat < 2 ^ w → n < 2 ^ (w - 1) →
    sdiff w (BitVec.ofNat 32 ((t0.toNat + n) % 2 ^ w)) t0 = (n : Int)

/-- Properties of the durations (43_iambic_key_decoder.md R152): `dash_time` is three times `dot_time` exactly, and a
higher legal speed gives a strictly shorter dot where `DOT_NUM >= s * (s + 1)` for every legal `s` below the maximum. -/
def Obligations.FasterSpeedsHaveShorterDots : Prop :=
  ∀ (s t u : State) (v w : BitVec 5), s.cfg.Valid → s.mode = .adjustCs →
    s.cfg.keyMinSpeed ≤ v.toNat → v.toNat < w.toNat → w.toNat ≤ s.cfg.keyMaxSpeed →
    (∀ x : Nat, s.cfg.keyMinSpeed ≤ x → x < s.cfg.keyMaxSpeed → x * (x + 1) ≤ s.cfg.dotNum) →
    exec (.setSpeed v) s = .next t → exec (.setSpeed w) s = .next u →
    u.key.dotTime.toNat < t.key.dotTime.toNat ∧
    t.key.dashTime.toNat = 3 * t.key.dotTime.toNat ∧ u.key.dashTime.toNat = 3 * u.key.dotTime.toNat

/-! ## Timelines (43_iambic_key_decoder.md R161 to R166, 45_morse_codec_playback.md R243) -/

/-- A single dot (R163): with the dot paddle closed at tick 0, the dash paddle never, and the dot paddle open from the
decision instant on, the events are `DOT` at 0, `EOE` at `dot_time`, `EOC` at `2 * dot_time + dash_time`, and no other,
however long the paddle stays closed before the decision instant. -/
def Obligations.SingleDotTimeline : Prop :=
  ∀ (s : State) (p : Nat → Bool × Bool), s.key.phase = .idle → s.key.dot = false → s.key.dash = false →
    1 ≤ s.key.dotTime.toNat → 1 ≤ s.key.dashTime.toNat →
    (p 0).1 = true → (∀ k, (p k).2 = false) → (∀ k, 2 * s.key.dotTime.toNat ≤ k → (p k).1 = false) →
    ∀ k : Nat, keyEvent p k s =
      if k = 0 then .dot
      else if k = s.key.dotTime.toNat then .eoe
      else if k = 2 * s.key.dotTime.toNat + s.key.dashTime.toNat then .eoc
      else .none

/-- No early termination (R157): an element with `D` ticks left ends exactly `D` ticks later, whatever the paddles do;
the key line is down until then and the gap of one `dot_time` follows. -/
def Obligations.ElementRunsItsFullLength : Prop :=
  ∀ (s : State) (p : Nat → Bool × Bool) (k : Nat), s.key.phase = .element → s.key.keyDown = true →
    k < s.key.timer.toNat →
    keyEvent p k s = (if k + 1 = s.key.timer.toNat then .eoe else .none) ∧
    (keyAfter p (k + 1) s).key.keyDown = decide (k + 1 ≠ s.key.timer.toNat) ∧
    (k + 1 = s.key.timer.toNat →
      (keyAfter p (k + 1) s).key.phase = .gap ∧ (keyAfter p (k + 1) s).key.timer = s.key.dotTime)

/-- One-element memory (R162): the opposite paddle closed in any tick step up to and including the element's last, and
released whenever, is sent next: the opposite element starts one `dot_time` after the `EOE`. -/
def Obligations.OppositePaddleIsRemembered : Prop :=
  ∀ (s : State) (p : Nat → Bool × Bool) (j : Nat), s.key.phase = .element → j < s.key.timer.toNat →
    1 ≤ s.key.dotTime.toNat →
    (s.key.last = .dot → (p j).2 = true →
      keyEvent p (s.key.timer.toNat - 1 + s.key.dotTime.toNat) s = .dash) ∧
    (s.key.last = .dash → (p j).1 = true →
      keyEvent p (s.key.timer.toNat - 1 + s.key.dotTime.toNat) s = .dot)

/-- Squeeze (R161): with both paddles held from rest the elements strictly alternate, beginning with `SQUEEZE_FIRST`,
in a periodic timeline, for ever. The period is `3 * dot_time + dash_time`, 360 ticks at speed 20: the rule's own ticks
(`DOT` at 0 and 360, `DASH` at 120 and 480), rules R155 to R158 and vector V3a give it, while the rule's closing words
say "with period 480". No ruling settles the contradiction; the statement follows the ticks (DEDUCED, log 16). -/
def Obligations.SqueezeAlternates : Prop :=
  ∀ (s : State) (p : Nat → Bool × Bool), s.key.phase = .idle → s.key.last = .none →
    1 ≤ s.key.dotTime.toNat → 1 ≤ s.key.dashTime.toNat → (∀ k, p k = (true, true)) →
    let d := s.key.dotTime.toNat
    let a := s.key.dashTime.toNat
    ∀ k : Nat,
      (s.cfg.squeezeFirst = .dot → keyEvent p k s =
        if k % (3 * d + a) = 0 then .dot
        else if k % (3 * d + a) = d then .eoe
        else if k % (3 * d + a) = 2 * d then .dash
        else if k % (3 * d + a) = 2 * d + a then .eoe
        else .none) ∧
      (s.cfg.squeezeFirst = .dash → keyEvent p k s =
        if k % (3 * d + a) = 0 then .dash
        else if k % (3 * d + a) = a then .eoe
        else if k % (3 * d + a) = a + d then .dot
        else if k % (3 * d + a) = a + 2 * d then .eoe
        else .none)

/-- Playback (45_morse_codec_playback.md R236, R237, R243): from a loaded pattern at rest in `MEM_SEND_TX`, whatever the
raw lines do, the tick steps emit exactly the timeline of the pattern's elements by `Encode` (R232), and the `EOC`
ends the playback with `PB_DONE`. -/
def Obligations.PlaybackSendsTheEncodedTimeline : Prop :=
  ∀ (s : State) (raw : Nat → Lines Bool), s.mode = .memSendTx → s.pb.active = true → 2 ≤ s.pb.pat.toNat →
    s.pb.rem.toNat = patternLength s.pb.pat → s.key.phase = .idle → s.key.dot = false → s.key.dash = false →
    1 ≤ s.key.dotTime.toNat → 1 ≤ s.key.dashTime.toNat →
    let events := timeline s.key.dotTime.toNat s.key.dashTime.toNat (encodePattern s.pb.pat)
    ((List.range events.length).map fun k => tickEvent raw k s) = events ∧
    (ticksAfter raw events.length s).pb.active = false ∧
    (ticksAfter raw events.length s).evflags.getLsbD 9 = true ∧
    (ticksAfter raw events.length s).mode = .memSendTx

/-- The physical paddles are not read in `MEM_SEND_TX` (45_morse_codec_playback.md R235): two tick steps whose raw lines
differ only on the paddles leave the same state but for the sampler's own `db` and `cnt`. -/
def Obligations.PaddlesHaveNoEffectInPlayback : Prop :=
  ∀ (s t u : State) (raw raw' : Lines Bool), s.mode = .memSendTx →
    raw = { raw' with dot := raw.dot, dash := raw.dash } →
    tickStep raw s = .next t → tickStep raw' s = .next u →
    t = { u with db := t.db, cnt := t.cnt }

/-- Who owns the transmitter (44_mode_sequencer.md R202): the two enables by their formulas; the transmitter is on only
in `KEYING`, `MEM_SEND_TX` and `TUNE`, and under the invariants the sidetone only where a key step runs. -/
def Obligations.TransmitterAndSidetoneGating : Prop :=
  ∀ s : State,
    (txEn s = true ↔ ((s.mode = .keying ∨ s.mode = .memSendTx) ∧ s.key.keyDown = true) ∨ s.mode = .tune) ∧
    (stEn s = true ↔ s.key.keyDown = true ∧ s.mode ≠ .error) ∧
    (Inv s → stEn s = true → s.mode ∈ [Mode.keying, .adjustCs, .memEnter, .memSendTx])

/-- The tick strobe (40_tick_scheduler.md R100): from just after a strobe, with no reset and no command, `n` cycles
count the prescaler to `n` and change no other element, and the next cycle is a strobe cycle exactly if
`n + 1 = TICK_DIV`. That one step is one clock cycle, with its input levels in a schedule, is the model's form (log 2,
log 3). -/
def Obligations.OneStrobeEveryTickDivCycles : Prop :=
  ∀ (s : State) (n : Nat), s.presc = 0 → n < s.cfg.tickDiv → n ≤ s.schedule.length →
    (∀ p ∈ s.schedule, p.rst = false ∧ p.cmdValid = false) →
    ∃ t : State, Host.Core.run Sys2Proof.core n s = .next t ∧
      t = { s with
        presc := n, schedule := s.schedule.drop n, cycle := s.cycle + n, answer := t.answer, bus := t.bus } ∧
      (strobe t = true ↔ n + 1 = s.cfg.tickDiv)

/-- The read port (10_state.md R41 to R43): the register of number `rd_addr` in the same cycle, every field at its bits
and every other bit 0. A read has no effect on the step of its cycle, nor has a command word without `cmd_valid`. The
tick counts stand in 32-bit words (log 11), so that the bits of registers 0, 11 and 12 from `TCOUNT_W` up are 0 is said
of the states that meet the invariants. The input levels of the cycle stand in a schedule (log 3). -/
def Obligations.ReadPortLayout : Prop :=
  ∀ s : State,
    rdDataOut s = readReg (pins s).rdAddr s ∧ readReg 0 s = s.tcount ∧
    ((readReg 1 s).getLsbD 0 = s.db.encA ∧ (readReg 1 s).getLsbD 1 = s.db.encB ∧
      (readReg 1 s).getLsbD 2 = s.db.encBtn ∧ (readReg 1 s).getLsbD 3 = s.db.ritBtn ∧
      (readReg 1 s).getLsbD 4 = s.db.keyerBtn ∧ (readReg 1 s).getLsbD 5 = s.db.dot ∧
      (readReg 1 s).getLsbD 6 = s.db.dash ∧ (readReg 1 s).extractLsb' 7 2 = s.encoderValue ∧
      (readReg 1 s).getLsbD 9 = s.encoderLastClock ∧ (readReg 1 s).extractLsb' 10 22 = 0) ∧
    ((readReg 2 s).getLsbD 0 = decide (s.key.mode = .straight) ∧ (readReg 2 s).getLsbD 1 = s.key.timeout ∧
      (readReg 2 s).getLsbD 2 = s.key.dot ∧ (readReg 2 s).getLsbD 3 = s.key.dash ∧
      (readReg 2 s).extractLsb' 4 5 = s.key.speed ∧ (readReg 2 s).getLsbD 9 = s.key.keyDown ∧
      (readReg 2 s).extractLsb' 10 2 = s.key.phase.code ∧ (readReg 2 s).extractLsb' 12 2 = s.key.last.code ∧
      (readReg 2 s).extractLsb' 14 18 = 0) ∧
    readReg 3 s = s.key.dotTime.setWidth 32 ∧ readReg 4 s = s.key.dashTime.setWidth 32 ∧
    readReg 5 s = s.key.timer.setWidth 32 ∧ readReg 6 s = s.mode.tag.setWidth 32 ∧
    ((readReg 7 s).getLsbD 0 = s.beacon ∧ (readReg 7 s).extractLsb' 1 7 = 0 ∧
      (readReg 7 s).extractLsb' 8 8 = s.memTxIndex ∧ (readReg 7 s).extractLsb' 16 16 = 0) ∧
    readReg 8 s = s.evflags.setWidth 32 ∧ readReg 9 s = s.errcode.setWidth 32 ∧
    ((readReg 10 s).extractLsb' 0 8 = s.pb.pat ∧ (readReg 10 s).extractLsb' 8 3 = s.pb.rem ∧
      (readReg 10 s).getLsbD 11 = s.pb.active ∧ (readReg 10 s).extractLsb' 12 20 = 0) ∧
    readReg 11 s = s.beaconT0 ∧ readReg 12 s = s.ritT0 ∧
    readReg 13 s = (if s.ritArmed then 1 else 0) ∧ readReg 14 s = 0 ∧ readReg 15 s = 0 ∧
    (Inv s → ∀ k : Nat, s.cfg.tcountW ≤ k →
      (readReg 0 s).getLsbD k = false ∧ (readReg 11 s).getLsbD k = false ∧ (readReg 12 s).getLsbD k = false) ∧
    ∀ (p : Config.Pins) (rest : List Config.Pins) (n : BitVec 4) (w : BitVec 16),
      step { s with schedule := { p with rdAddr := n } :: rest } = step { s with schedule := p :: rest } ∧
      (p.cmdValid = false →
        step { s with schedule := { p with cmd := w } :: rest } = step { s with schedule := p :: rest })
end

