-- ==== Sys2Proof/Laws/Memory.lean ====
section
/-!
SUPPORT. Persistent storage: a write is read back and leaves every other byte alone, the canonical form is kept, and
memories in canonical form that read the same are the same data.
-/

namespace Sys2Proof.Machine

@[simp] theorem Memory.read_nil (x : Nat) : Memory.read [] x = nvErased := rfl

theorem Memory.read_cons (a : Nat) (v : Byte) (m : Memory) (x : Nat) :
    Memory.read ((a, v) :: m) x = if x = a then v else Memory.read m x := rfl

theorem Memory.wfFrom_cons (lo a : Nat) (v : Byte) (m : Memory) :
    Memory.wfFrom lo ((a, v) :: m) = true ↔ lo ≤ a ∧ v ≠ nvErased ∧ Memory.wfFrom (a + 1) m = true := by
  simp [Memory.wfFrom, and_assoc]

theorem Memory.wfFrom_mono {lo lo' : Nat} {m : Memory} (h : lo' ≤ lo) (hm : Memory.wfFrom lo m = true) :
    Memory.wfFrom lo' m = true := by
  cases m with
  | nil => rfl
  | cons c m =>
    obtain ⟨a, v⟩ := c
    rw [Memory.wfFrom_cons] at hm ⊢
    exact ⟨h.trans hm.1, hm.2⟩

/-- Below the addresses of a canonical memory nothing is written. -/
theorem Memory.read_below {lo : Nat} {m : Memory} (hm : Memory.wfFrom lo m = true) {x : Nat} (hx : x < lo) :
    m.read x = nvErased := by
  induction m generalizing lo with
  | nil => rfl
  | cons c m ih =>
    obtain ⟨a, v⟩ := c
    rw [Memory.wfFrom_cons] at hm
    rw [Memory.read_cons, if_neg (by omega)]
    exact ih hm.2.2 (by omega)

/-- A write leaves every other byte alone, whatever the form of the memory. -/
theorem Memory.read_write_other (m : Memory) (x y : Nat) (b : Byte) (h : y ≠ x) :
    (m.write x b).read y = m.read y := by
  induction m with
  | nil => unfold Memory.write; split <;> simp [Memory.read_cons, h]
  | cons c m ih =>
    obtain ⟨a, v⟩ := c
    unfold Memory.write
    split
    · split <;> simp [Memory.read_cons, h]
    · split
      · next hax => subst hax; split <;> simp [Memory.read_cons, h]
      · simp [Memory.read_cons, ih]

/-- A write is read back. -/
theorem Memory.read_write_same {lo : Nat} {m : Memory} (hm : Memory.wfFrom lo m = true) (x : Nat) (b : Byte) :
    (m.write x b).read x = b := by
  induction m generalizing lo with
  | nil => unfold Memory.write; split <;> simp_all [Memory.read_cons]
  | cons c m ih =>
    obtain ⟨a, v⟩ := c
    rw [Memory.wfFrom_cons] at hm
    unfold Memory.write
    split
    · next hlt =>
      split
      · next hb => rw [Memory.read_cons, if_neg (by omega), hb]; exact Memory.read_below hm.2.2 (by omega)
      · simp [Memory.read_cons]
    · split
      · next hax =>
        subst hax
        split
        · next hb => rw [hb]; exact Memory.read_below hm.2.2 (by omega)
        · simp [Memory.read_cons]
      · next hne => rw [Memory.read_cons, if_neg hne]; exact ih hm.2.2

/-- A write keeps the canonical form. -/
theorem Memory.write_wfFrom {lo : Nat} {m : Memory} (hm : Memory.wfFrom lo m = true) (x : Nat) (b : Byte)
    (hx : lo ≤ x) : Memory.wfFrom lo (m.write x b) = true := by
  induction m generalizing lo with
  | nil => unfold Memory.write; split <;> simp_all [Memory.wfFrom]
  | cons c m ih =>
    obtain ⟨a, v⟩ := c
    have hm' := (Memory.wfFrom_cons lo a v m).mp hm
    unfold Memory.write
    split
    · split
      · exact hm
      · next hb =>
        rw [Memory.wfFrom_cons]
        exact ⟨hx, hb, (Memory.wfFrom_cons _ _ _ _).mpr ⟨by omega, hm'.2⟩⟩
    · split
      · split
        · exact Memory.wfFrom_mono (by omega) hm'.2.2
        · next hb => rw [Memory.wfFrom_cons]; exact ⟨hm'.1, hb, hm'.2.2⟩
      · rw [Memory.wfFrom_cons]; exact ⟨hm'.1, hm'.2.1, ih hm'.2.2 (by omega)⟩

theorem Memory.write_wf {m : Memory} (hm : m.wf = true) (x : Nat) (b : Byte) : (m.write x b).wf = true :=
  Memory.write_wfFrom hm x b (Nat.zero_le x)

/-- Two canonical memories that read the same are the same data. -/
theorem Memory.ext_of_wfFrom {lo : Nat} {m n : Memory} (hm : Memory.wfFrom lo m = true)
    (hn : Memory.wfFrom lo n = true) (h : ∀ x, m.read x = n.read x) : m = n := by
  induction m generalizing lo n with
  | nil =>
    cases n with
    | nil => rfl
    | cons c n =>
      obtain ⟨a, v⟩ := c
      have hx := h a
      rw [Memory.wfFrom_cons] at hn
      simp [Memory.read_cons] at hx
      exact absurd hx.symm hn.2.1
  | cons c m ih =>
    obtain ⟨a, v⟩ := c
    have hm' := (Memory.wfFrom_cons _ _ _ _).mp hm
    cases n with
    | nil => exact absurd (by simpa [Memory.read_cons] using h a) hm'.2.1
    | cons d n =>
      obtain ⟨b, w⟩ := d
      have hn' := (Memory.wfFrom_cons _ _ _ _).mp hn
      have hab : a = b := by
        rcases Nat.lt_trichotomy a b with hlt | heq | hgt
        · have hx := h a
          rw [Memory.read_cons, if_pos rfl, Memory.read_cons, if_neg (by omega),
            Memory.read_below hn'.2.2 (by omega)] at hx
          exact absurd hx hm'.2.1
        · exact heq
        · have hx := h b
          rw [Memory.read_cons, if_neg (by omega), Memory.read_below hm'.2.2 (by omega), Memory.read_cons,
            if_pos rfl] at hx
          exact absurd hx.symm hn'.2.1
      subst hab
      have hvw : v = w := by simpa [Memory.read_cons] using h a
      subst hvw
      congr 1
      refine ih hm'.2.2 hn'.2.2 fun x => ?_
      by_cases hxa : x = a
      · subst hxa
        rw [Memory.read_below hm'.2.2 (by omega), Memory.read_below hn'.2.2 (by omega)]
      · simpa [Memory.read_cons, hxa] using h x

end Sys2Proof.Machine
end

