-- ==== Sys2Proof/Laws/State.lean ====
section
/-!
SUPPORT. One simp lemma per field of `State` per named update: what the update writes there, or that it leaves the field.
-/

namespace Sys2Proof.Machine

/-! ## `flag` -/

@[simp] theorem flag_cfg (f : Flag) (s : State) : (flag f s).cfg = s.cfg := rfl
@[simp] theorem flag_presc (f : Flag) (s : State) : (flag f s).presc = s.presc := rfl
@[simp] theorem flag_tcount (f : Flag) (s : State) : (flag f s).tcount = s.tcount := rfl
@[simp] theorem flag_db (f : Flag) (s : State) : (flag f s).db = s.db := rfl
@[simp] theorem flag_cnt (f : Flag) (s : State) : (flag f s).cnt = s.cnt := rfl
@[simp] theorem flag_encoderValue (f : Flag) (s : State) : (flag f s).encoderValue = s.encoderValue := rfl
@[simp] theorem flag_encoderLastClock (f : Flag) (s : State) : (flag f s).encoderLastClock = s.encoderLastClock := rfl
@[simp] theorem flag_ritT0 (f : Flag) (s : State) : (flag f s).ritT0 = s.ritT0 := rfl
@[simp] theorem flag_ritArmed (f : Flag) (s : State) : (flag f s).ritArmed = s.ritArmed := rfl
@[simp] theorem flag_key (f : Flag) (s : State) : (flag f s).key = s.key := rfl
@[simp] theorem flag_mode (f : Flag) (s : State) : (flag f s).mode = s.mode := rfl
@[simp] theorem flag_beacon (f : Flag) (s : State) : (flag f s).beacon = s.beacon := rfl
@[simp] theorem flag_memTxIndex (f : Flag) (s : State) : (flag f s).memTxIndex = s.memTxIndex := rfl
@[simp] theorem flag_beaconT0 (f : Flag) (s : State) : (flag f s).beaconT0 = s.beaconT0 := rfl
@[simp] theorem flag_pb (f : Flag) (s : State) : (flag f s).pb = s.pb := rfl
@[simp] theorem flag_errcode (f : Flag) (s : State) : (flag f s).errcode = s.errcode := rfl
@[simp] theorem flag_evflags (f : Flag) (s : State) : (flag f s).evflags = s.evflags ||| f.mask := rfl
@[simp] theorem flag_ev (f : Flag) (s : State) : (flag f s).ev = s.ev := rfl
@[simp] theorem flag_blink (f : Flag) (s : State) : (flag f s).blink = s.blink := rfl
@[simp] theorem flag_nv (f : Flag) (s : State) : (flag f s).nv = s.nv := rfl
@[simp] theorem flag_locals (f : Flag) (s : State) : (flag f s).locals = s.locals := rfl
@[simp] theorem flag_answer (f : Flag) (s : State) : (flag f s).answer = s.answer := rfl
@[simp] theorem flag_bus (f : Flag) (s : State) : (flag f s).bus = s.bus := rfl
@[simp] theorem flag_schedule (f : Flag) (s : State) : (flag f s).schedule = s.schedule := rfl
@[simp] theorem flag_cycle (f : Flag) (s : State) : (flag f s).cycle = s.cycle := rfl

/-! ## `flagIf` -/

@[simp] theorem flagIf_cfg (c : Bool) (f : Flag) (s : State) : (flagIf c f s).cfg = s.cfg := by
  cases c <;> rfl
@[simp] theorem flagIf_presc (c : Bool) (f : Flag) (s : State) : (flagIf c f s).presc = s.presc := by
  cases c <;> rfl
@[simp] theorem flagIf_tcount (c : Bool) (f : Flag) (s : State) : (flagIf c f s).tcount = s.tcount := by
  cases c <;> rfl
@[simp] theorem flagIf_db (c : Bool) (f : Flag) (s : State) : (flagIf c f s).db = s.db := by
  cases c <;> rfl
@[simp] theorem flagIf_cnt (c : Bool) (f : Flag) (s : State) : (flagIf c f s).cnt = s.cnt := by
  cases c <;> rfl
@[simp] theorem flagIf_encoderValue (c : Bool) (f : Flag) (s : State) : (flagIf c f s).encoderValue = s.encoderValue := by
  cases c <;> rfl
@[simp] theorem flagIf_encoderLastClock (c : Bool) (f : Flag) (s : State) : (flagIf c f s).encoderLastClock = s.encoderLastClock := by
  cases c <;> rfl
@[simp] theorem flagIf_ritT0 (c : Bool) (f : Flag) (s : State) : (flagIf c f s).ritT0 = s.ritT0 := by
  cases c <;> rfl
@[simp] theorem flagIf_ritArmed (c : Bool) (f : Flag) (s : State) : (flagIf c f s).ritArmed = s.ritArmed := by
  cases c <;> rfl
@[simp] theorem flagIf_key (c : Bool) (f : Flag) (s : State) : (flagIf c f s).key = s.key := by
  cases c <;> rfl
@[simp] theorem flagIf_mode (c : Bool) (f : Flag) (s : State) : (flagIf c f s).mode = s.mode := by
  cases c <;> rfl
@[simp] theorem flagIf_beacon (c : Bool) (f : Flag) (s : State) : (flagIf c f s).beacon = s.beacon := by
  cases c <;> rfl
@[simp] theorem flagIf_memTxIndex (c : Bool) (f : Flag) (s : State) : (flagIf c f s).memTxIndex = s.memTxIndex := by
  cases c <;> rfl
@[simp] theorem flagIf_beaconT0 (c : Bool) (f : Flag) (s : State) : (flagIf c f s).beaconT0 = s.beaconT0 := by
  cases c <;> rfl
@[simp] theorem flagIf_pb (c : Bool) (f : Flag) (s : State) : (flagIf c f s).pb = s.pb := by
  cases c <;> rfl
@[simp] theorem flagIf_errcode (c : Bool) (f : Flag) (s : State) : (flagIf c f s).errcode = s.errcode := by
  cases c <;> rfl
@[simp] theorem flagIf_evflags (c : Bool) (f : Flag) (s : State) : (flagIf c f s).evflags = (if c then s.evflags ||| f.mask else s.evflags) := by
  cases c <;> rfl
@[simp] theorem flagIf_ev (c : Bool) (f : Flag) (s : State) : (flagIf c f s).ev = s.ev := by
  cases c <;> rfl
@[simp] theorem flagIf_blink (c : Bool) (f : Flag) (s : State) : (flagIf c f s).blink = s.blink := by
  cases c <;> rfl
@[simp] theorem flagIf_nv (c : Bool) (f : Flag) (s : State) : (flagIf c f s).nv = s.nv := by
  cases c <;> rfl
@[simp] theorem flagIf_locals (c : Bool) (f : Flag) (s : State) : (flagIf c f s).locals = s.locals := by
  cases c <;> rfl
@[simp] theorem flagIf_answer (c : Bool) (f : Flag) (s : State) : (flagIf c f s).answer = s.answer := by
  cases c <;> rfl
@[simp] theorem flagIf_bus (c : Bool) (f : Flag) (s : State) : (flagIf c f s).bus = s.bus := by
  cases c <;> rfl
@[simp] theorem flagIf_schedule (c : Bool) (f : Flag) (s : State) : (flagIf c f s).schedule = s.schedule := by
  cases c <;> rfl
@[simp] theorem flagIf_cycle (c : Bool) (f : Flag) (s : State) : (flagIf c f s).cycle = s.cycle := by
  cases c <;> rfl

/-! ## `emit` -/

@[simp] theorem emit_cfg (e : Event) (s : State) : (emit e s).cfg = s.cfg := rfl
@[simp] theorem emit_presc (e : Event) (s : State) : (emit e s).presc = s.presc := rfl
@[simp] theorem emit_tcount (e : Event) (s : State) : (emit e s).tcount = s.tcount := rfl
@[simp] theorem emit_db (e : Event) (s : State) : (emit e s).db = s.db := rfl
@[simp] theorem emit_cnt (e : Event) (s : State) : (emit e s).cnt = s.cnt := rfl
@[simp] theorem emit_encoderValue (e : Event) (s : State) : (emit e s).encoderValue = s.encoderValue := rfl
@[simp] theorem emit_encoderLastClock (e : Event) (s : State) : (emit e s).encoderLastClock = s.encoderLastClock := rfl
@[simp] theorem emit_ritT0 (e : Event) (s : State) : (emit e s).ritT0 = s.ritT0 := rfl
@[simp] theorem emit_ritArmed (e : Event) (s : State) : (emit e s).ritArmed = s.ritArmed := rfl
@[simp] theorem emit_key (e : Event) (s : State) : (emit e s).key = s.key := rfl
@[simp] theorem emit_mode (e : Event) (s : State) : (emit e s).mode = s.mode := rfl
@[simp] theorem emit_beacon (e : Event) (s : State) : (emit e s).beacon = s.beacon := rfl
@[simp] theorem emit_memTxIndex (e : Event) (s : State) : (emit e s).memTxIndex = s.memTxIndex := rfl
@[simp] theorem emit_beaconT0 (e : Event) (s : State) : (emit e s).beaconT0 = s.beaconT0 := rfl
@[simp] theorem emit_pb (e : Event) (s : State) : (emit e s).pb = s.pb := rfl
@[simp] theorem emit_errcode (e : Event) (s : State) : (emit e s).errcode = s.errcode := rfl
@[simp] theorem emit_evflags (e : Event) (s : State) : (emit e s).evflags = s.evflags := rfl
@[simp] theorem emit_ev (e : Event) (s : State) : (emit e s).ev = e := rfl
@[simp] theorem emit_blink (e : Event) (s : State) : (emit e s).blink = s.blink := rfl
@[simp] theorem emit_nv (e : Event) (s : State) : (emit e s).nv = s.nv := rfl
@[simp] theorem emit_locals (e : Event) (s : State) : (emit e s).locals = s.locals := rfl
@[simp] theorem emit_answer (e : Event) (s : State) : (emit e s).answer = s.answer := rfl
@[simp] theorem emit_bus (e : Event) (s : State) : (emit e s).bus = s.bus := rfl
@[simp] theorem emit_schedule (e : Event) (s : State) : (emit e s).schedule = s.schedule := rfl
@[simp] theorem emit_cycle (e : Event) (s : State) : (emit e s).cycle = s.cycle := rfl

/-! ## `clearEvent` -/

@[simp] theorem clearEvent_cfg (s : State) : (clearEvent s).cfg = s.cfg := rfl
@[simp] theorem clearEvent_presc (s : State) : (clearEvent s).presc = s.presc := rfl
@[simp] theorem clearEvent_tcount (s : State) : (clearEvent s).tcount = s.tcount := rfl
@[simp] theorem clearEvent_db (s : State) : (clearEvent s).db = s.db := rfl
@[simp] theorem clearEvent_cnt (s : State) : (clearEvent s).cnt = s.cnt := rfl
@[simp] theorem clearEvent_encoderValue (s : State) : (clearEvent s).encoderValue = s.encoderValue := rfl
@[simp] theorem clearEvent_encoderLastClock (s : State) : (clearEvent s).encoderLastClock = s.encoderLastClock := rfl
@[simp] theorem clearEvent_ritT0 (s : State) : (clearEvent s).ritT0 = s.ritT0 := rfl
@[simp] theorem clearEvent_ritArmed (s : State) : (clearEvent s).ritArmed = s.ritArmed := rfl
@[simp] theorem clearEvent_key (s : State) : (clearEvent s).key = s.key := rfl
@[simp] theorem clearEvent_mode (s : State) : (clearEvent s).mode = s.mode := rfl
@[simp] theorem clearEvent_beacon (s : State) : (clearEvent s).beacon = s.beacon := rfl
@[simp] theorem clearEvent_memTxIndex (s : State) : (clearEvent s).memTxIndex = s.memTxIndex := rfl
@[simp] theorem clearEvent_beaconT0 (s : State) : (clearEvent s).beaconT0 = s.beaconT0 := rfl
@[simp] theorem clearEvent_pb (s : State) : (clearEvent s).pb = s.pb := rfl
@[simp] theorem clearEvent_errcode (s : State) : (clearEvent s).errcode = s.errcode := rfl
@[simp] theorem clearEvent_evflags (s : State) : (clearEvent s).evflags = s.evflags := rfl
@[simp] theorem clearEvent_ev (s : State) : (clearEvent s).ev = .none := rfl
@[simp] theorem clearEvent_blink (s : State) : (clearEvent s).blink = s.blink := rfl
@[simp] theorem clearEvent_nv (s : State) : (clearEvent s).nv = s.nv := rfl
@[simp] theorem clearEvent_locals (s : State) : (clearEvent s).locals = s.locals := rfl
@[simp] theorem clearEvent_answer (s : State) : (clearEvent s).answer = s.answer := rfl
@[simp] theorem clearEvent_bus (s : State) : (clearEvent s).bus = s.bus := rfl
@[simp] theorem clearEvent_schedule (s : State) : (clearEvent s).schedule = s.schedule := rfl
@[simp] theorem clearEvent_cycle (s : State) : (clearEvent s).cycle = s.cycle := rfl

/-! ## `flagEvent` -/

@[simp] theorem flagEvent_cfg (s : State) : (flagEvent s).cfg = s.cfg := by
  unfold flagEvent; split <;> rfl
@[simp] theorem flagEvent_presc (s : State) : (flagEvent s).presc = s.presc := by
  unfold flagEvent; split <;> rfl
@[simp] theorem flagEvent_tcount (s : State) : (flagEvent s).tcount = s.tcount := by
  unfold flagEvent; split <;> rfl
@[simp] theorem flagEvent_db (s : State) : (flagEvent s).db = s.db := by
  unfold flagEvent; split <;> rfl
@[simp] theorem flagEvent_cnt (s : State) : (flagEvent s).cnt = s.cnt := by
  unfold flagEvent; split <;> rfl
@[simp] theorem flagEvent_encoderValue (s : State) : (flagEvent s).encoderValue = s.encoderValue := by
  unfold flagEvent; split <;> rfl
@[simp] theorem flagEvent_encoderLastClock (s : State) : (flagEvent s).encoderLastClock = s.encoderLastClock := by
  unfold flagEvent; split <;> rfl
@[simp] theorem flagEvent_ritT0 (s : State) : (flagEvent s).ritT0 = s.ritT0 := by
  unfold flagEvent; split <;> rfl
@[simp] theorem flagEvent_ritArmed (s : State) : (flagEvent s).ritArmed = s.ritArmed := by
  unfold flagEvent; split <;> rfl
@[simp] theorem flagEvent_key (s : State) : (flagEvent s).key = s.key := by
  unfold flagEvent; split <;> rfl
@[simp] theorem flagEvent_mode (s : State) : (flagEvent s).mode = s.mode := by
  unfold flagEvent; split <;> rfl
@[simp] theorem flagEvent_beacon (s : State) : (flagEvent s).beacon = s.beacon := by
  unfold flagEvent; split <;> rfl
@[simp] theorem flagEvent_memTxIndex (s : State) : (flagEvent s).memTxIndex = s.memTxIndex := by
  unfold flagEvent; split <;> rfl
@[simp] theorem flagEvent_beaconT0 (s : State) : (flagEvent s).beaconT0 = s.beaconT0 := by
  unfold flagEvent; split <;> rfl
@[simp] theorem flagEvent_pb (s : State) : (flagEvent s).pb = s.pb := by
  unfold flagEvent; split <;> rfl
@[simp] theorem flagEvent_errcode (s : State) : (flagEvent s).errcode = s.errcode := by
  unfold flagEvent; split <;> rfl
@[simp] theorem flagEvent_ev (s : State) : (flagEvent s).ev = s.ev := by
  unfold flagEvent; split <;> rfl
@[simp] theorem flagEvent_blink (s : State) : (flagEvent s).blink = s.blink := by
  unfold flagEvent; split <;> rfl
@[simp] theorem flagEvent_nv (s : State) : (flagEvent s).nv = s.nv := by
  unfold flagEvent; split <;> rfl
@[simp] theorem flagEvent_locals (s : State) : (flagEvent s).locals = s.locals := by
  unfold flagEvent; split <;> rfl
@[simp] theorem flagEvent_answer (s : State) : (flagEvent s).answer = s.answer := by
  unfold flagEvent; split <;> rfl
@[simp] theorem flagEvent_bus (s : State) : (flagEvent s).bus = s.bus := by
  unfold flagEvent; split <;> rfl
@[simp] theorem flagEvent_schedule (s : State) : (flagEvent s).schedule = s.schedule := by
  unfold flagEvent; split <;> rfl
@[simp] theorem flagEvent_cycle (s : State) : (flagEvent s).cycle = s.cycle := by
  unfold flagEvent; split <;> rfl

@[simp] theorem flagEvent_evflags (s : State) :
    (flagEvent s).evflags = s.evflags ||| (s.ev.flag.map Flag.mask).getD 0 := by
  unfold flagEvent; split <;> simp_all

/-! ## `setTimes` -/

@[simp] theorem setTimes_cfg (s : State) : (setTimes s).cfg = s.cfg := rfl
@[simp] theorem setTimes_presc (s : State) : (setTimes s).presc = s.presc := rfl
@[simp] theorem setTimes_tcount (s : State) : (setTimes s).tcount = s.tcount := rfl
@[simp] theorem setTimes_db (s : State) : (setTimes s).db = s.db := rfl
@[simp] theorem setTimes_cnt (s : State) : (setTimes s).cnt = s.cnt := rfl
@[simp] theorem setTimes_encoderValue (s : State) : (setTimes s).encoderValue = s.encoderValue := rfl
@[simp] theorem setTimes_encoderLastClock (s : State) : (setTimes s).encoderLastClock = s.encoderLastClock := rfl
@[simp] theorem setTimes_ritT0 (s : State) : (setTimes s).ritT0 = s.ritT0 := rfl
@[simp] theorem setTimes_ritArmed (s : State) : (setTimes s).ritArmed = s.ritArmed := rfl
@[simp] theorem setTimes_key (s : State) : (setTimes s).key = { s.key with
      dotTime := BitVec.ofNat 16 (s.cfg.dotNum / s.key.speed.toNat)
      dashTime := BitVec.ofNat 16 (3 * (s.cfg.dotNum / s.key.speed.toNat)) } := rfl
@[simp] theorem setTimes_mode (s : State) : (setTimes s).mode = s.mode := rfl
@[simp] theorem setTimes_beacon (s : State) : (setTimes s).beacon = s.beacon := rfl
@[simp] theorem setTimes_memTxIndex (s : State) : (setTimes s).memTxIndex = s.memTxIndex := rfl
@[simp] theorem setTimes_beaconT0 (s : State) : (setTimes s).beaconT0 = s.beaconT0 := rfl
@[simp] theorem setTimes_pb (s : State) : (setTimes s).pb = s.pb := rfl
@[simp] theorem setTimes_errcode (s : State) : (setTimes s).errcode = s.errcode := rfl
@[simp] theorem setTimes_evflags (s : State) : (setTimes s).evflags = s.evflags := rfl
@[simp] theorem setTimes_ev (s : State) : (setTimes s).ev = s.ev := rfl
@[simp] theorem setTimes_blink (s : State) : (setTimes s).blink = s.blink := rfl
@[simp] theorem setTimes_nv (s : State) : (setTimes s).nv = s.nv := rfl
@[simp] theorem setTimes_locals (s : State) : (setTimes s).locals = s.locals := rfl
@[simp] theorem setTimes_answer (s : State) : (setTimes s).answer = s.answer := rfl
@[simp] theorem setTimes_bus (s : State) : (setTimes s).bus = s.bus := rfl
@[simp] theorem setTimes_schedule (s : State) : (setTimes s).schedule = s.schedule := rfl
@[simp] theorem setTimes_cycle (s : State) : (setTimes s).cycle = s.cycle := rfl

/-! ## `writeSpeed` -/

@[simp] theorem writeSpeed_cfg (v : BitVec 5) (s : State) : (writeSpeed v s).cfg = s.cfg := rfl
@[simp] theorem writeSpeed_presc (v : BitVec 5) (s : State) : (writeSpeed v s).presc = s.presc := rfl
@[simp] theorem writeSpeed_tcount (v : BitVec 5) (s : State) : (writeSpeed v s).tcount = s.tcount := rfl
@[simp] theorem writeSpeed_db (v : BitVec 5) (s : State) : (writeSpeed v s).db = s.db := rfl
@[simp] theorem writeSpeed_cnt (v : BitVec 5) (s : State) : (writeSpeed v s).cnt = s.cnt := rfl
@[simp] theorem writeSpeed_encoderValue (v : BitVec 5) (s : State) : (writeSpeed v s).encoderValue = s.encoderValue := rfl
@[simp] theorem writeSpeed_encoderLastClock (v : BitVec 5) (s : State) : (writeSpeed v s).encoderLastClock = s.encoderLastClock := rfl
@[simp] theorem writeSpeed_ritT0 (v : BitVec 5) (s : State) : (writeSpeed v s).ritT0 = s.ritT0 := rfl
@[simp] theorem writeSpeed_ritArmed (v : BitVec 5) (s : State) : (writeSpeed v s).ritArmed = s.ritArmed := rfl
@[simp] theorem writeSpeed_key (v : BitVec 5) (s : State) : (writeSpeed v s).key = { s.key with
      speed := v
      dotTime := BitVec.ofNat 16 (s.cfg.dotNum / v.toNat)
      dashTime := BitVec.ofNat 16 (3 * (s.cfg.dotNum / v.toNat)) } := rfl
@[simp] theorem writeSpeed_mode (v : BitVec 5) (s : State) : (writeSpeed v s).mode = s.mode := rfl
@[simp] theorem writeSpeed_beacon (v : BitVec 5) (s : State) : (writeSpeed v s).beacon = s.beacon := rfl
@[simp] theorem writeSpeed_memTxIndex (v : BitVec 5) (s : State) : (writeSpeed v s).memTxIndex = s.memTxIndex := rfl
@[simp] theorem writeSpeed_beaconT0 (v : BitVec 5) (s : State) : (writeSpeed v s).beaconT0 = s.beaconT0 := rfl
@[simp] theorem writeSpeed_pb (v : BitVec 5) (s : State) : (writeSpeed v s).pb = s.pb := rfl
@[simp] theorem writeSpeed_errcode (v : BitVec 5) (s : State) : (writeSpeed v s).errcode = s.errcode := rfl
@[simp] theorem writeSpeed_evflags (v : BitVec 5) (s : State) : (writeSpeed v s).evflags = s.evflags := rfl
@[simp] theorem writeSpeed_ev (v : BitVec 5) (s : State) : (writeSpeed v s).ev = s.ev := rfl
@[simp] theorem writeSpeed_blink (v : BitVec 5) (s : State) : (writeSpeed v s).blink = s.blink := rfl
@[simp] theorem writeSpeed_nv (v : BitVec 5) (s : State) : (writeSpeed v s).nv = s.nv := rfl
@[simp] theorem writeSpeed_locals (v : BitVec 5) (s : State) : (writeSpeed v s).locals = s.locals := rfl
@[simp] theorem writeSpeed_answer (v : BitVec 5) (s : State) : (writeSpeed v s).answer = s.answer := rfl
@[simp] theorem writeSpeed_bus (v : BitVec 5) (s : State) : (writeSpeed v s).bus = s.bus := rfl
@[simp] theorem writeSpeed_schedule (v : BitVec 5) (s : State) : (writeSpeed v s).schedule = s.schedule := rfl
@[simp] theorem writeSpeed_cycle (v : BitVec 5) (s : State) : (writeSpeed v s).cycle = s.cycle := rfl

/-! ## `keyReset` -/

@[simp] theorem keyReset_cfg (s : State) : (keyReset s).cfg = s.cfg := rfl
@[simp] theorem keyReset_presc (s : State) : (keyReset s).presc = s.presc := rfl
@[simp] theorem keyReset_tcount (s : State) : (keyReset s).tcount = s.tcount := rfl
@[simp] theorem keyReset_db (s : State) : (keyReset s).db = s.db := rfl
@[simp] theorem keyReset_cnt (s : State) : (keyReset s).cnt = s.cnt := rfl
@[simp] theorem keyReset_encoderValue (s : State) : (keyReset s).encoderValue = s.encoderValue := rfl
@[simp] theorem keyReset_encoderLastClock (s : State) : (keyReset s).encoderLastClock = s.encoderLastClock := rfl
@[simp] theorem keyReset_ritT0 (s : State) : (keyReset s).ritT0 = s.ritT0 := rfl
@[simp] theorem keyReset_ritArmed (s : State) : (keyReset s).ritArmed = s.ritArmed := rfl
@[simp] theorem keyReset_key (s : State) : (keyReset s).key = 
    { s.key with phase := .idle, timer := 0, dot := false, dash := false, timeout := false, keyDown := false, last := .none } := rfl
@[simp] theorem keyReset_mode (s : State) : (keyReset s).mode = s.mode := rfl
@[simp] theorem keyReset_beacon (s : State) : (keyReset s).beacon = s.beacon := rfl
@[simp] theorem keyReset_memTxIndex (s : State) : (keyReset s).memTxIndex = s.memTxIndex := rfl
@[simp] theorem keyReset_beaconT0 (s : State) : (keyReset s).beaconT0 = s.beaconT0 := rfl
@[simp] theorem keyReset_pb (s : State) : (keyReset s).pb = s.pb := rfl
@[simp] theorem keyReset_errcode (s : State) : (keyReset s).errcode = s.errcode := rfl
@[simp] theorem keyReset_evflags (s : State) : (keyReset s).evflags = s.evflags := rfl
@[simp] theorem keyReset_ev (s : State) : (keyReset s).ev = s.ev := rfl
@[simp] theorem keyReset_blink (s : State) : (keyReset s).blink = s.blink := rfl
@[simp] theorem keyReset_nv (s : State) : (keyReset s).nv = s.nv := rfl
@[simp] theorem keyReset_locals (s : State) : (keyReset s).locals = s.locals := rfl
@[simp] theorem keyReset_answer (s : State) : (keyReset s).answer = s.answer := rfl
@[simp] theorem keyReset_bus (s : State) : (keyReset s).bus = s.bus := rfl
@[simp] theorem keyReset_schedule (s : State) : (keyReset s).schedule = s.schedule := rfl
@[simp] theorem keyReset_cycle (s : State) : (keyReset s).cycle = s.cycle := rfl

/-! ## `clearPlayback` -/

@[simp] theorem clearPlayback_cfg (s : State) : (clearPlayback s).cfg = s.cfg := rfl
@[simp] theorem clearPlayback_presc (s : State) : (clearPlayback s).presc = s.presc := rfl
@[simp] theorem clearPlayback_tcount (s : State) : (clearPlayback s).tcount = s.tcount := rfl
@[simp] theorem clearPlayback_db (s : State) : (clearPlayback s).db = s.db := rfl
@[simp] theorem clearPlayback_cnt (s : State) : (clearPlayback s).cnt = s.cnt := rfl
@[simp] theorem clearPlayback_encoderValue (s : State) : (clearPlayback s).encoderValue = s.encoderValue := rfl
@[simp] theorem clearPlayback_encoderLastClock (s : State) : (clearPlayback s).encoderLastClock = s.encoderLastClock := rfl
@[simp] theorem clearPlayback_ritT0 (s : State) : (clearPlayback s).ritT0 = s.ritT0 := rfl
@[simp] theorem clearPlayback_ritArmed (s : State) : (clearPlayback s).ritArmed = s.ritArmed := rfl
@[simp] theorem clearPlayback_key (s : State) : (clearPlayback s).key = s.key := rfl
@[simp] theorem clearPlayback_mode (s : State) : (clearPlayback s).mode = s.mode := rfl
@[simp] theorem clearPlayback_beacon (s : State) : (clearPlayback s).beacon = s.beacon := rfl
@[simp] theorem clearPlayback_memTxIndex (s : State) : (clearPlayback s).memTxIndex = s.memTxIndex := rfl
@[simp] theorem clearPlayback_beaconT0 (s : State) : (clearPlayback s).beaconT0 = s.beaconT0 := rfl
@[simp] theorem clearPlayback_pb (s : State) : (clearPlayback s).pb = { pat := 0, rem := 0, active := false } := rfl
@[simp] theorem clearPlayback_errcode (s : State) : (clearPlayback s).errcode = s.errcode := rfl
@[simp] theorem clearPlayback_evflags (s : State) : (clearPlayback s).evflags = s.evflags := rfl
@[simp] theorem clearPlayback_ev (s : State) : (clearPlayback s).ev = s.ev := rfl
@[simp] theorem clearPlayback_blink (s : State) : (clearPlayback s).blink = s.blink := rfl
@[simp] theorem clearPlayback_nv (s : State) : (clearPlayback s).nv = s.nv := rfl
@[simp] theorem clearPlayback_locals (s : State) : (clearPlayback s).locals = s.locals := rfl
@[simp] theorem clearPlayback_answer (s : State) : (clearPlayback s).answer = s.answer := rfl
@[simp] theorem clearPlayback_bus (s : State) : (clearPlayback s).bus = s.bus := rfl
@[simp] theorem clearPlayback_schedule (s : State) : (clearPlayback s).schedule = s.schedule := rfl
@[simp] theorem clearPlayback_cycle (s : State) : (clearPlayback s).cycle = s.cycle := rfl

/-! ## `enter` -/

@[simp] theorem enter_cfg (m : Mode) (s : State) : (enter m s).cfg = s.cfg := by
  unfold enter; by_cases h : s.mode = .default ∧ m = .keying <;> by_cases hm : m = .default <;> simp [h, hm]
@[simp] theorem enter_presc (m : Mode) (s : State) : (enter m s).presc = s.presc := by
  unfold enter; by_cases h : s.mode = .default ∧ m = .keying <;> by_cases hm : m = .default <;> simp [h, hm]
@[simp] theorem enter_tcount (m : Mode) (s : State) : (enter m s).tcount = s.tcount := by
  unfold enter; by_cases h : s.mode = .default ∧ m = .keying <;> by_cases hm : m = .default <;> simp [h, hm]
@[simp] theorem enter_db (m : Mode) (s : State) : (enter m s).db = s.db := by
  unfold enter; by_cases h : s.mode = .default ∧ m = .keying <;> by_cases hm : m = .default <;> simp [h, hm]
@[simp] theorem enter_cnt (m : Mode) (s : State) : (enter m s).cnt = s.cnt := by
  unfold enter; by_cases h : s.mode = .default ∧ m = .keying <;> by_cases hm : m = .default <;> simp [h, hm]
@[simp] theorem enter_encoderValue (m : Mode) (s : State) : (enter m s).encoderValue = s.encoderValue := by
  unfold enter; by_cases h : s.mode = .default ∧ m = .keying <;> by_cases hm : m = .default <;> simp [h, hm]
@[simp] theorem enter_encoderLastClock (m : Mode) (s : State) : (enter m s).encoderLastClock = s.encoderLastClock := by
  unfold enter; by_cases h : s.mode = .default ∧ m = .keying <;> by_cases hm : m = .default <;> simp [h, hm]
@[simp] theorem enter_ritT0 (m : Mode) (s : State) : (enter m s).ritT0 = s.ritT0 := by
  unfold enter; by_cases h : s.mode = .default ∧ m = .keying <;> by_cases hm : m = .default <;> simp [h, hm]
@[simp] theorem enter_ritArmed (m : Mode) (s : State) : (enter m s).ritArmed = s.ritArmed := by
  unfold enter; by_cases h : s.mode = .default ∧ m = .keying <;> by_cases hm : m = .default <;> simp [h, hm]
@[simp] theorem enter_key (m : Mode) (s : State) : (enter m s).key = (if s.mode = .default ∧ m = .keying then s.key else (keyReset s).key) := by
  unfold enter; by_cases h : s.mode = .default ∧ m = .keying <;> by_cases hm : m = .default <;> simp [h, hm]
@[simp] theorem enter_mode (m : Mode) (s : State) : (enter m s).mode = m := by
  unfold enter; by_cases h : s.mode = .default ∧ m = .keying <;> by_cases hm : m = .default <;> simp [h, hm]
@[simp] theorem enter_beacon (m : Mode) (s : State) : (enter m s).beacon = s.beacon := by
  unfold enter; by_cases h : s.mode = .default ∧ m = .keying <;> by_cases hm : m = .default <;> simp [h, hm]
@[simp] theorem enter_memTxIndex (m : Mode) (s : State) : (enter m s).memTxIndex = s.memTxIndex := by
  unfold enter; by_cases h : s.mode = .default ∧ m = .keying <;> by_cases hm : m = .default <;> simp [h, hm]
@[simp] theorem enter_beaconT0 (m : Mode) (s : State) : (enter m s).beaconT0 = (if m = .default then s.tcount else s.beaconT0) := by
  unfold enter; by_cases h : s.mode = .default ∧ m = .keying <;> by_cases hm : m = .default <;> simp [h, hm]
@[simp] theorem enter_pb (m : Mode) (s : State) : (enter m s).pb = { pat := 0, rem := 0, active := false } := by
  unfold enter; by_cases h : s.mode = .default ∧ m = .keying <;> by_cases hm : m = .default <;> simp [h, hm]
@[simp] theorem enter_errcode (m : Mode) (s : State) : (enter m s).errcode = s.errcode := by
  unfold enter; by_cases h : s.mode = .default ∧ m = .keying <;> by_cases hm : m = .default <;> simp [h, hm]
@[simp] theorem enter_evflags (m : Mode) (s : State) : (enter m s).evflags = (if m = .memSendTx then s.evflags ||| Flag.mask .pbReq else s.evflags) := by
  unfold enter; by_cases h : s.mode = .default ∧ m = .keying <;> by_cases hm : m = .default <;> simp [h, hm]
@[simp] theorem enter_ev (m : Mode) (s : State) : (enter m s).ev = s.ev := by
  unfold enter; by_cases h : s.mode = .default ∧ m = .keying <;> by_cases hm : m = .default <;> simp [h, hm]
@[simp] theorem enter_blink (m : Mode) (s : State) : (enter m s).blink = s.blink := by
  unfold enter; by_cases h : s.mode = .default ∧ m = .keying <;> by_cases hm : m = .default <;> simp [h, hm]
@[simp] theorem enter_nv (m : Mode) (s : State) : (enter m s).nv = s.nv := by
  unfold enter; by_cases h : s.mode = .default ∧ m = .keying <;> by_cases hm : m = .default <;> simp [h, hm]
@[simp] theorem enter_locals (m : Mode) (s : State) : (enter m s).locals = s.locals := by
  unfold enter; by_cases h : s.mode = .default ∧ m = .keying <;> by_cases hm : m = .default <;> simp [h, hm]
@[simp] theorem enter_answer (m : Mode) (s : State) : (enter m s).answer = s.answer := by
  unfold enter; by_cases h : s.mode = .default ∧ m = .keying <;> by_cases hm : m = .default <;> simp [h, hm]
@[simp] theorem enter_bus (m : Mode) (s : State) : (enter m s).bus = s.bus := by
  unfold enter; by_cases h : s.mode = .default ∧ m = .keying <;> by_cases hm : m = .default <;> simp [h, hm]
@[simp] theorem enter_schedule (m : Mode) (s : State) : (enter m s).schedule = s.schedule := by
  unfold enter; by_cases h : s.mode = .default ∧ m = .keying <;> by_cases hm : m = .default <;> simp [h, hm]
@[simp] theorem enter_cycle (m : Mode) (s : State) : (enter m s).cycle = s.cycle := by
  unfold enter; by_cases h : s.mode = .default ∧ m = .keying <;> by_cases hm : m = .default <;> simp [h, hm]

/-! ## `raiseFault` -/

@[simp] theorem raiseFault_cfg (code : BitVec 8) (s : State) : (raiseFault code s).cfg = s.cfg := by
  simp [raiseFault]
@[simp] theorem raiseFault_presc (code : BitVec 8) (s : State) : (raiseFault code s).presc = s.presc := by
  simp [raiseFault]
@[simp] theorem raiseFault_tcount (code : BitVec 8) (s : State) : (raiseFault code s).tcount = s.tcount := by
  simp [raiseFault]
@[simp] theorem raiseFault_db (code : BitVec 8) (s : State) : (raiseFault code s).db = s.db := by
  simp [raiseFault]
@[simp] theorem raiseFault_cnt (code : BitVec 8) (s : State) : (raiseFault code s).cnt = s.cnt := by
  simp [raiseFault]
@[simp] theorem raiseFault_encoderValue (code : BitVec 8) (s : State) : (raiseFault code s).encoderValue = s.encoderValue := by
  simp [raiseFault]
@[simp] theorem raiseFault_encoderLastClock (code : BitVec 8) (s : State) : (raiseFault code s).encoderLastClock = s.encoderLastClock := by
  simp [raiseFault]
@[simp] theorem raiseFault_ritT0 (code : BitVec 8) (s : State) : (raiseFault code s).ritT0 = s.ritT0 := by
  simp [raiseFault]
@[simp] theorem raiseFault_ritArmed (code : BitVec 8) (s : State) : (raiseFault code s).ritArmed = s.ritArmed := by
  simp [raiseFault]
@[simp] theorem raiseFault_key (code : BitVec 8) (s : State) : (raiseFault code s).key = (keyReset s).key := by
  simp [raiseFault]
@[simp] theorem raiseFault_mode (code : BitVec 8) (s : State) : (raiseFault code s).mode = .error := by
  simp [raiseFault]
@[simp] theorem raiseFault_beacon (code : BitVec 8) (s : State) : (raiseFault code s).beacon = s.beacon := by
  simp [raiseFault]
@[simp] theorem raiseFault_memTxIndex (code : BitVec 8) (s : State) : (raiseFault code s).memTxIndex = s.memTxIndex := by
  simp [raiseFault]
@[simp] theorem raiseFault_beaconT0 (code : BitVec 8) (s : State) : (raiseFault code s).beaconT0 = s.beaconT0 := by
  simp [raiseFault]
@[simp] theorem raiseFault_pb (code : BitVec 8) (s : State) : (raiseFault code s).pb = { pat := 0, rem := 0, active := false } := by
  simp [raiseFault]
@[simp] theorem raiseFault_errcode (code : BitVec 8) (s : State) : (raiseFault code s).errcode = code := by
  simp [raiseFault]
@[simp] theorem raiseFault_evflags (code : BitVec 8) (s : State) : (raiseFault code s).evflags = s.evflags := by
  simp [raiseFault]
@[simp] theorem raiseFault_ev (code : BitVec 8) (s : State) : (raiseFault code s).ev = s.ev := by
  simp [raiseFault]
@[simp] theorem raiseFault_blink (code : BitVec 8) (s : State) : (raiseFault code s).blink = s.blink := by
  simp [raiseFault]
@[simp] theorem raiseFault_nv (code : BitVec 8) (s : State) : (raiseFault code s).nv = s.nv := by
  simp [raiseFault]
@[simp] theorem raiseFault_locals (code : BitVec 8) (s : State) : (raiseFault code s).locals = s.locals := by
  simp [raiseFault]
@[simp] theorem raiseFault_answer (code : BitVec 8) (s : State) : (raiseFault code s).answer = s.answer := by
  simp [raiseFault]
@[simp] theorem raiseFault_bus (code : BitVec 8) (s : State) : (raiseFault code s).bus = s.bus := by
  simp [raiseFault]
@[simp] theorem raiseFault_schedule (code : BitVec 8) (s : State) : (raiseFault code s).schedule = s.schedule := by
  simp [raiseFault]
@[simp] theorem raiseFault_cycle (code : BitVec 8) (s : State) : (raiseFault code s).cycle = s.cycle := by
  simp [raiseFault]

/-! ## `latchOpposite` -/

@[simp] theorem latchOpposite_cfg (pd ps : Bool) (s : State) : (latchOpposite pd ps s).cfg = s.cfg := rfl
@[simp] theorem latchOpposite_presc (pd ps : Bool) (s : State) : (latchOpposite pd ps s).presc = s.presc := rfl
@[simp] theorem latchOpposite_tcount (pd ps : Bool) (s : State) : (latchOpposite pd ps s).tcount = s.tcount := rfl
@[simp] theorem latchOpposite_db (pd ps : Bool) (s : State) : (latchOpposite pd ps s).db = s.db := rfl
@[simp] theorem latchOpposite_cnt (pd ps : Bool) (s : State) : (latchOpposite pd ps s).cnt = s.cnt := rfl
@[simp] theorem latchOpposite_encoderValue (pd ps : Bool) (s : State) : (latchOpposite pd ps s).encoderValue = s.encoderValue := rfl
@[simp] theorem latchOpposite_encoderLastClock (pd ps : Bool) (s : State) : (latchOpposite pd ps s).encoderLastClock = s.encoderLastClock := rfl
@[simp] theorem latchOpposite_ritT0 (pd ps : Bool) (s : State) : (latchOpposite pd ps s).ritT0 = s.ritT0 := rfl
@[simp] theorem latchOpposite_ritArmed (pd ps : Bool) (s : State) : (latchOpposite pd ps s).ritArmed = s.ritArmed := rfl
@[simp] theorem latchOpposite_key (pd ps : Bool) (s : State) : (latchOpposite pd ps s).key = { s.key with
      dash := s.key.dash || (decide (s.key.last = .dot) && ps)
      dot := s.key.dot || (decide (s.key.last = .dash) && pd) } := rfl
@[simp] theorem latchOpposite_mode (pd ps : Bool) (s : State) : (latchOpposite pd ps s).mode = s.mode := rfl
@[simp] theorem latchOpposite_beacon (pd ps : Bool) (s : State) : (latchOpposite pd ps s).beacon = s.beacon := rfl
@[simp] theorem latchOpposite_memTxIndex (pd ps : Bool) (s : State) : (latchOpposite pd ps s).memTxIndex = s.memTxIndex := rfl
@[simp] theorem latchOpposite_beaconT0 (pd ps : Bool) (s : State) : (latchOpposite pd ps s).beaconT0 = s.beaconT0 := rfl
@[simp] theorem latchOpposite_pb (pd ps : Bool) (s : State) : (latchOpposite pd ps s).pb = s.pb := rfl
@[simp] theorem latchOpposite_errcode (pd ps : Bool) (s : State) : (latchOpposite pd ps s).errcode = s.errcode := rfl
@[simp] theorem latchOpposite_evflags (pd ps : Bool) (s : State) : (latchOpposite pd ps s).evflags = s.evflags := rfl
@[simp] theorem latchOpposite_ev (pd ps : Bool) (s : State) : (latchOpposite pd ps s).ev = s.ev := rfl
@[simp] theorem latchOpposite_blink (pd ps : Bool) (s : State) : (latchOpposite pd ps s).blink = s.blink := rfl
@[simp] theorem latchOpposite_nv (pd ps : Bool) (s : State) : (latchOpposite pd ps s).nv = s.nv := rfl
@[simp] theorem latchOpposite_locals (pd ps : Bool) (s : State) : (latchOpposite pd ps s).locals = s.locals := rfl
@[simp] theorem latchOpposite_answer (pd ps : Bool) (s : State) : (latchOpposite pd ps s).answer = s.answer := rfl
@[simp] theorem latchOpposite_bus (pd ps : Bool) (s : State) : (latchOpposite pd ps s).bus = s.bus := rfl
@[simp] theorem latchOpposite_schedule (pd ps : Bool) (s : State) : (latchOpposite pd ps s).schedule = s.schedule := rfl
@[simp] theorem latchOpposite_cycle (pd ps : Bool) (s : State) : (latchOpposite pd ps s).cycle = s.cycle := rfl

/-! ## `countDown` -/

@[simp] theorem countDown_cfg (s : State) : (countDown s).cfg = s.cfg := rfl
@[simp] theorem countDown_presc (s : State) : (countDown s).presc = s.presc := rfl
@[simp] theorem countDown_tcount (s : State) : (countDown s).tcount = s.tcount := rfl
@[simp] theorem countDown_db (s : State) : (countDown s).db = s.db := rfl
@[simp] theorem countDown_cnt (s : State) : (countDown s).cnt = s.cnt := rfl
@[simp] theorem countDown_encoderValue (s : State) : (countDown s).encoderValue = s.encoderValue := rfl
@[simp] theorem countDown_encoderLastClock (s : State) : (countDown s).encoderLastClock = s.encoderLastClock := rfl
@[simp] theorem countDown_ritT0 (s : State) : (countDown s).ritT0 = s.ritT0 := rfl
@[simp] theorem countDown_ritArmed (s : State) : (countDown s).ritArmed = s.ritArmed := rfl
@[simp] theorem countDown_key (s : State) : (countDown s).key = { s.key with timer := s.key.timer - 1 } := rfl
@[simp] theorem countDown_mode (s : State) : (countDown s).mode = s.mode := rfl
@[simp] theorem countDown_beacon (s : State) : (countDown s).beacon = s.beacon := rfl
@[simp] theorem countDown_memTxIndex (s : State) : (countDown s).memTxIndex = s.memTxIndex := rfl
@[simp] theorem countDown_beaconT0 (s : State) : (countDown s).beaconT0 = s.beaconT0 := rfl
@[simp] theorem countDown_pb (s : State) : (countDown s).pb = s.pb := rfl
@[simp] theorem countDown_errcode (s : State) : (countDown s).errcode = s.errcode := rfl
@[simp] theorem countDown_evflags (s : State) : (countDown s).evflags = s.evflags := rfl
@[simp] theorem countDown_ev (s : State) : (countDown s).ev = s.ev := rfl
@[simp] theorem countDown_blink (s : State) : (countDown s).blink = s.blink := rfl
@[simp] theorem countDown_nv (s : State) : (countDown s).nv = s.nv := rfl
@[simp] theorem countDown_locals (s : State) : (countDown s).locals = s.locals := rfl
@[simp] theorem countDown_answer (s : State) : (countDown s).answer = s.answer := rfl
@[simp] theorem countDown_bus (s : State) : (countDown s).bus = s.bus := rfl
@[simp] theorem countDown_schedule (s : State) : (countDown s).schedule = s.schedule := rfl
@[simp] theorem countDown_cycle (s : State) : (countDown s).cycle = s.cycle := rfl

/-! ## `startElement` -/

@[simp] theorem startElement_cfg (x : Element) (pd ps : Bool) (s : State) : (startElement x pd ps s).cfg = s.cfg := rfl
@[simp] theorem startElement_presc (x : Element) (pd ps : Bool) (s : State) : (startElement x pd ps s).presc = s.presc := rfl
@[simp] theorem startElement_tcount (x : Element) (pd ps : Bool) (s : State) : (startElement x pd ps s).tcount = s.tcount := rfl
@[simp] theorem startElement_db (x : Element) (pd ps : Bool) (s : State) : (startElement x pd ps s).db = s.db := rfl
@[simp] theorem startElement_cnt (x : Element) (pd ps : Bool) (s : State) : (startElement x pd ps s).cnt = s.cnt := rfl
@[simp] theorem startElement_encoderValue (x : Element) (pd ps : Bool) (s : State) : (startElement x pd ps s).encoderValue = s.encoderValue := rfl
@[simp] theorem startElement_encoderLastClock (x : Element) (pd ps : Bool) (s : State) : (startElement x pd ps s).encoderLastClock = s.encoderLastClock := rfl
@[simp] theorem startElement_ritT0 (x : Element) (pd ps : Bool) (s : State) : (startElement x pd ps s).ritT0 = s.ritT0 := rfl
@[simp] theorem startElement_ritArmed (x : Element) (pd ps : Bool) (s : State) : (startElement x pd ps s).ritArmed = s.ritArmed := rfl
@[simp] theorem startElement_key (x : Element) (pd ps : Bool) (s : State) : (startElement x pd ps s).key = { s.key with
      dot := decide (x = .dash) && pd
      dash := decide (x = .dot) && ps
      timeout := false
      last := lastOf x
      keyDown := true
      phase := .element
      timer := durationOf s.key x } := rfl
@[simp] theorem startElement_mode (x : Element) (pd ps : Bool) (s : State) : (startElement x pd ps s).mode = s.mode := rfl
@[simp] theorem startElement_beacon (x : Element) (pd ps : Bool) (s : State) : (startElement x pd ps s).beacon = s.beacon := rfl
@[simp] theorem startElement_memTxIndex (x : Element) (pd ps : Bool) (s : State) : (startElement x pd ps s).memTxIndex = s.memTxIndex := rfl
@[simp] theorem startElement_beaconT0 (x : Element) (pd ps : Bool) (s : State) : (startElement x pd ps s).beaconT0 = s.beaconT0 := rfl
@[simp] theorem startElement_pb (x : Element) (pd ps : Bool) (s : State) : (startElement x pd ps s).pb = s.pb := rfl
@[simp] theorem startElement_errcode (x : Element) (pd ps : Bool) (s : State) : (startElement x pd ps s).errcode = s.errcode := rfl
@[simp] theorem startElement_evflags (x : Element) (pd ps : Bool) (s : State) : (startElement x pd ps s).evflags = s.evflags := rfl
@[simp] theorem startElement_ev (x : Element) (pd ps : Bool) (s : State) : (startElement x pd ps s).ev = eventOf x := rfl
@[simp] theorem startElement_blink (x : Element) (pd ps : Bool) (s : State) : (startElement x pd ps s).blink = s.blink := rfl
@[simp] theorem startElement_nv (x : Element) (pd ps : Bool) (s : State) : (startElement x pd ps s).nv = s.nv := rfl
@[simp] theorem startElement_locals (x : Element) (pd ps : Bool) (s : State) : (startElement x pd ps s).locals = s.locals := rfl
@[simp] theorem startElement_answer (x : Element) (pd ps : Bool) (s : State) : (startElement x pd ps s).answer = s.answer := rfl
@[simp] theorem startElement_bus (x : Element) (pd ps : Bool) (s : State) : (startElement x pd ps s).bus = s.bus := rfl
@[simp] theorem startElement_schedule (x : Element) (pd ps : Bool) (s : State) : (startElement x pd ps s).schedule = s.schedule := rfl
@[simp] theorem startElement_cycle (x : Element) (pd ps : Bool) (s : State) : (startElement x pd ps s).cycle = s.cycle := rfl

/-! ## `ritArm` -/

@[simp] theorem ritArm_cfg (s : State) : (ritArm s).cfg = s.cfg := by
  unfold ritArm; split <;> dsimp only <;> split <;> rfl
@[simp] theorem ritArm_presc (s : State) : (ritArm s).presc = s.presc := by
  unfold ritArm; split <;> dsimp only <;> split <;> rfl
@[simp] theorem ritArm_tcount (s : State) : (ritArm s).tcount = s.tcount := by
  unfold ritArm; split <;> dsimp only <;> split <;> rfl
@[simp] theorem ritArm_db (s : State) : (ritArm s).db = s.db := by
  unfold ritArm; split <;> dsimp only <;> split <;> rfl
@[simp] theorem ritArm_cnt (s : State) : (ritArm s).cnt = s.cnt := by
  unfold ritArm; split <;> dsimp only <;> split <;> rfl
@[simp] theorem ritArm_encoderValue (s : State) : (ritArm s).encoderValue = s.encoderValue := by
  unfold ritArm; split <;> dsimp only <;> split <;> rfl
@[simp] theorem ritArm_encoderLastClock (s : State) : (ritArm s).encoderLastClock = s.encoderLastClock := by
  unfold ritArm; split <;> dsimp only <;> split <;> rfl
@[simp] theorem ritArm_ritT0 (s : State) : (ritArm s).ritT0 = (if rose .ritBtn s then s.tcount else s.ritT0) := by
  unfold ritArm; cases h : rose .ritBtn s <;> cases hb : s.db.ritBtn <;> simp [hb]
@[simp] theorem ritArm_ritArmed (s : State) : (ritArm s).ritArmed = (s.db.ritBtn && (rose .ritBtn s || s.ritArmed)) := by
  unfold ritArm; cases h : rose .ritBtn s <;> cases hb : s.db.ritBtn <;> simp [hb]
@[simp] theorem ritArm_key (s : State) : (ritArm s).key = s.key := by
  unfold ritArm; split <;> dsimp only <;> split <;> rfl
@[simp] theorem ritArm_mode (s : State) : (ritArm s).mode = s.mode := by
  unfold ritArm; split <;> dsimp only <;> split <;> rfl
@[simp] theorem ritArm_beacon (s : State) : (ritArm s).beacon = s.beacon := by
  unfold ritArm; split <;> dsimp only <;> split <;> rfl
@[simp] theorem ritArm_memTxIndex (s : State) : (ritArm s).memTxIndex = s.memTxIndex := by
  unfold ritArm; split <;> dsimp only <;> split <;> rfl
@[simp] theorem ritArm_beaconT0 (s : State) : (ritArm s).beaconT0 = s.beaconT0 := by
  unfold ritArm; split <;> dsimp only <;> split <;> rfl
@[simp] theorem ritArm_pb (s : State) : (ritArm s).pb = s.pb := by
  unfold ritArm; split <;> dsimp only <;> split <;> rfl
@[simp] theorem ritArm_errcode (s : State) : (ritArm s).errcode = s.errcode := by
  unfold ritArm; split <;> dsimp only <;> split <;> rfl
@[simp] theorem ritArm_evflags (s : State) : (ritArm s).evflags = s.evflags := by
  unfold ritArm; split <;> dsimp only <;> split <;> rfl
@[simp] theorem ritArm_ev (s : State) : (ritArm s).ev = s.ev := by
  unfold ritArm; split <;> dsimp only <;> split <;> rfl
@[simp] theorem ritArm_blink (s : State) : (ritArm s).blink = s.blink := by
  unfold ritArm; split <;> dsimp only <;> split <;> rfl
@[simp] theorem ritArm_nv (s : State) : (ritArm s).nv = s.nv := by
  unfold ritArm; split <;> dsimp only <;> split <;> rfl
@[simp] theorem ritArm_locals (s : State) : (ritArm s).locals = s.locals := by
  unfold ritArm; split <;> dsimp only <;> split <;> rfl
@[simp] theorem ritArm_answer (s : State) : (ritArm s).answer = s.answer := by
  unfold ritArm; split <;> dsimp only <;> split <;> rfl
@[simp] theorem ritArm_bus (s : State) : (ritArm s).bus = s.bus := by
  unfold ritArm; split <;> dsimp only <;> split <;> rfl
@[simp] theorem ritArm_schedule (s : State) : (ritArm s).schedule = s.schedule := by
  unfold ritArm; split <;> dsimp only <;> split <;> rfl
@[simp] theorem ritArm_cycle (s : State) : (ritArm s).cycle = s.cycle := by
  unfold ritArm; split <;> dsimp only <;> split <;> rfl

/-! ## `loadPattern` -/

@[simp] theorem loadPattern_cfg (p : Byte) (s : State) : (loadPattern p s).cfg = s.cfg := by
  unfold loadPattern; split <;> rfl
@[simp] theorem loadPattern_presc (p : Byte) (s : State) : (loadPattern p s).presc = s.presc := by
  unfold loadPattern; split <;> rfl
@[simp] theorem loadPattern_tcount (p : Byte) (s : State) : (loadPattern p s).tcount = s.tcount := by
  unfold loadPattern; split <;> rfl
@[simp] theorem loadPattern_db (p : Byte) (s : State) : (loadPattern p s).db = s.db := by
  unfold loadPattern; split <;> rfl
@[simp] theorem loadPattern_cnt (p : Byte) (s : State) : (loadPattern p s).cnt = s.cnt := by
  unfold loadPattern; split <;> rfl
@[simp] theorem loadPattern_encoderValue (p : Byte) (s : State) : (loadPattern p s).encoderValue = s.encoderValue := by
  unfold loadPattern; split <;> rfl
@[simp] theorem loadPattern_encoderLastClock (p : Byte) (s : State) : (loadPattern p s).encoderLastClock = s.encoderLastClock := by
  unfold loadPattern; split <;> rfl
@[simp] theorem loadPattern_ritT0 (p : Byte) (s : State) : (loadPattern p s).ritT0 = s.ritT0 := by
  unfold loadPattern; split <;> rfl
@[simp] theorem loadPattern_ritArmed (p : Byte) (s : State) : (loadPattern p s).ritArmed = s.ritArmed := by
  unfold loadPattern; split <;> rfl
@[simp] theorem loadPattern_key (p : Byte) (s : State) : (loadPattern p s).key = s.key := by
  unfold loadPattern; split <;> rfl
@[simp] theorem loadPattern_mode (p : Byte) (s : State) : (loadPattern p s).mode = s.mode := by
  unfold loadPattern; split <;> rfl
@[simp] theorem loadPattern_beacon (p : Byte) (s : State) : (loadPattern p s).beacon = s.beacon := by
  unfold loadPattern; split <;> rfl
@[simp] theorem loadPattern_memTxIndex (p : Byte) (s : State) : (loadPattern p s).memTxIndex = s.memTxIndex := by
  unfold loadPattern; split <;> rfl
@[simp] theorem loadPattern_beaconT0 (p : Byte) (s : State) : (loadPattern p s).beaconT0 = s.beaconT0 := by
  unfold loadPattern; split <;> rfl
@[simp] theorem loadPattern_pb (p : Byte) (s : State) : (loadPattern p s).pb = (if 2 ≤ p.toNat then { pat := p, rem := BitVec.ofNat 3 (patternLength p), active := true } else s.pb) := by
  unfold loadPattern; split <;> rfl
@[simp] theorem loadPattern_errcode (p : Byte) (s : State) : (loadPattern p s).errcode = s.errcode := by
  unfold loadPattern; split <;> rfl
@[simp] theorem loadPattern_evflags (p : Byte) (s : State) : (loadPattern p s).evflags = (if 2 ≤ p.toNat then s.evflags else s.evflags ||| Flag.mask .pbDone) := by
  unfold loadPattern; split <;> rfl
@[simp] theorem loadPattern_ev (p : Byte) (s : State) : (loadPattern p s).ev = s.ev := by
  unfold loadPattern; split <;> rfl
@[simp] theorem loadPattern_blink (p : Byte) (s : State) : (loadPattern p s).blink = s.blink := by
  unfold loadPattern; split <;> rfl
@[simp] theorem loadPattern_nv (p : Byte) (s : State) : (loadPattern p s).nv = s.nv := by
  unfold loadPattern; split <;> rfl
@[simp] theorem loadPattern_locals (p : Byte) (s : State) : (loadPattern p s).locals = s.locals := by
  unfold loadPattern; split <;> rfl
@[simp] theorem loadPattern_answer (p : Byte) (s : State) : (loadPattern p s).answer = s.answer := by
  unfold loadPattern; split <;> rfl
@[simp] theorem loadPattern_bus (p : Byte) (s : State) : (loadPattern p s).bus = s.bus := by
  unfold loadPattern; split <;> rfl
@[simp] theorem loadPattern_schedule (p : Byte) (s : State) : (loadPattern p s).schedule = s.schedule := by
  unfold loadPattern; split <;> rfl
@[simp] theorem loadPattern_cycle (p : Byte) (s : State) : (loadPattern p s).cycle = s.cycle := by
  unfold loadPattern; split <;> rfl

/-! ## `clearLocals` -/

@[simp] theorem clearLocals_cfg (s : State) : (clearLocals s).cfg = s.cfg := rfl
@[simp] theorem clearLocals_presc (s : State) : (clearLocals s).presc = s.presc := rfl
@[simp] theorem clearLocals_tcount (s : State) : (clearLocals s).tcount = s.tcount := rfl
@[simp] theorem clearLocals_db (s : State) : (clearLocals s).db = s.db := rfl
@[simp] theorem clearLocals_cnt (s : State) : (clearLocals s).cnt = s.cnt := rfl
@[simp] theorem clearLocals_encoderValue (s : State) : (clearLocals s).encoderValue = s.encoderValue := rfl
@[simp] theorem clearLocals_encoderLastClock (s : State) : (clearLocals s).encoderLastClock = s.encoderLastClock := rfl
@[simp] theorem clearLocals_ritT0 (s : State) : (clearLocals s).ritT0 = s.ritT0 := rfl
@[simp] theorem clearLocals_ritArmed (s : State) : (clearLocals s).ritArmed = s.ritArmed := rfl
@[simp] theorem clearLocals_key (s : State) : (clearLocals s).key = s.key := rfl
@[simp] theorem clearLocals_mode (s : State) : (clearLocals s).mode = s.mode := rfl
@[simp] theorem clearLocals_beacon (s : State) : (clearLocals s).beacon = s.beacon := rfl
@[simp] theorem clearLocals_memTxIndex (s : State) : (clearLocals s).memTxIndex = s.memTxIndex := rfl
@[simp] theorem clearLocals_beaconT0 (s : State) : (clearLocals s).beaconT0 = s.beaconT0 := rfl
@[simp] theorem clearLocals_pb (s : State) : (clearLocals s).pb = s.pb := rfl
@[simp] theorem clearLocals_errcode (s : State) : (clearLocals s).errcode = s.errcode := rfl
@[simp] theorem clearLocals_evflags (s : State) : (clearLocals s).evflags = s.evflags := rfl
@[simp] theorem clearLocals_ev (s : State) : (clearLocals s).ev = s.ev := rfl
@[simp] theorem clearLocals_blink (s : State) : (clearLocals s).blink = s.blink := rfl
@[simp] theorem clearLocals_nv (s : State) : (clearLocals s).nv = s.nv := rfl
@[simp] theorem clearLocals_locals (s : State) : (clearLocals s).locals = .idle := rfl
@[simp] theorem clearLocals_answer (s : State) : (clearLocals s).answer = s.answer := rfl
@[simp] theorem clearLocals_bus (s : State) : (clearLocals s).bus = s.bus := rfl
@[simp] theorem clearLocals_schedule (s : State) : (clearLocals s).schedule = s.schedule := rfl
@[simp] theorem clearLocals_cycle (s : State) : (clearLocals s).cycle = s.cycle := rfl

/-! ## `beginCycle` -/

@[simp] theorem beginCycle_cfg (s : State) : (beginCycle s).cfg = s.cfg := rfl
@[simp] theorem beginCycle_presc (s : State) : (beginCycle s).presc = s.presc := rfl
@[simp] theorem beginCycle_tcount (s : State) : (beginCycle s).tcount = s.tcount := rfl
@[simp] theorem beginCycle_db (s : State) : (beginCycle s).db = s.db := rfl
@[simp] theorem beginCycle_cnt (s : State) : (beginCycle s).cnt = s.cnt := rfl
@[simp] theorem beginCycle_encoderValue (s : State) : (beginCycle s).encoderValue = s.encoderValue := rfl
@[simp] theorem beginCycle_encoderLastClock (s : State) : (beginCycle s).encoderLastClock = s.encoderLastClock := rfl
@[simp] theorem beginCycle_ritT0 (s : State) : (beginCycle s).ritT0 = s.ritT0 := rfl
@[simp] theorem beginCycle_ritArmed (s : State) : (beginCycle s).ritArmed = s.ritArmed := rfl
@[simp] theorem beginCycle_key (s : State) : (beginCycle s).key = s.key := rfl
@[simp] theorem beginCycle_mode (s : State) : (beginCycle s).mode = s.mode := rfl
@[simp] theorem beginCycle_beacon (s : State) : (beginCycle s).beacon = s.beacon := rfl
@[simp] theorem beginCycle_memTxIndex (s : State) : (beginCycle s).memTxIndex = s.memTxIndex := rfl
@[simp] theorem beginCycle_beaconT0 (s : State) : (beginCycle s).beaconT0 = s.beaconT0 := rfl
@[simp] theorem beginCycle_pb (s : State) : (beginCycle s).pb = s.pb := rfl
@[simp] theorem beginCycle_errcode (s : State) : (beginCycle s).errcode = s.errcode := rfl
@[simp] theorem beginCycle_evflags (s : State) : (beginCycle s).evflags = s.evflags := rfl
@[simp] theorem beginCycle_ev (s : State) : (beginCycle s).ev = s.ev := rfl
@[simp] theorem beginCycle_blink (s : State) : (beginCycle s).blink = s.blink := rfl
@[simp] theorem beginCycle_nv (s : State) : (beginCycle s).nv = s.nv := rfl
@[simp] theorem beginCycle_locals (s : State) : (beginCycle s).locals = s.locals := rfl
@[simp] theorem beginCycle_answer (s : State) : (beginCycle s).answer = none := rfl
@[simp] theorem beginCycle_bus (s : State) : (beginCycle s).bus = [] := rfl
@[simp] theorem beginCycle_schedule (s : State) : (beginCycle s).schedule = s.schedule.tail := rfl
@[simp] theorem beginCycle_cycle (s : State) : (beginCycle s).cycle = s.cycle + 1 := rfl

/-! ## `hwReset` -/

@[simp] theorem hwReset_cfg (s : State) : (hwReset s).cfg = s.cfg := rfl
@[simp] theorem hwReset_presc (s : State) : (hwReset s).presc = 0 := rfl
@[simp] theorem hwReset_tcount (s : State) : (hwReset s).tcount = 0 := rfl
@[simp] theorem hwReset_db (s : State) : (hwReset s).db = .all false := rfl
@[simp] theorem hwReset_cnt (s : State) : (hwReset s).cnt = .all 0 := rfl
@[simp] theorem hwReset_encoderValue (s : State) : (hwReset s).encoderValue = 0 := rfl
@[simp] theorem hwReset_encoderLastClock (s : State) : (hwReset s).encoderLastClock = false := rfl
@[simp] theorem hwReset_ritT0 (s : State) : (hwReset s).ritT0 = 0 := rfl
@[simp] theorem hwReset_ritArmed (s : State) : (hwReset s).ritArmed = false := rfl
@[simp] theorem hwReset_mode (s : State) : (hwReset s).mode = .startup := rfl
@[simp] theorem hwReset_beacon (s : State) : (hwReset s).beacon = false := rfl
@[simp] theorem hwReset_memTxIndex (s : State) : (hwReset s).memTxIndex = 0 := rfl
@[simp] theorem hwReset_beaconT0 (s : State) : (hwReset s).beaconT0 = 0 := rfl
@[simp] theorem hwReset_pb (s : State) : (hwReset s).pb = { pat := 0, rem := 0, active := false } := rfl
@[simp] theorem hwReset_errcode (s : State) : (hwReset s).errcode = 0 := rfl
@[simp] theorem hwReset_evflags (s : State) : (hwReset s).evflags = 0 := rfl
@[simp] theorem hwReset_ev (s : State) : (hwReset s).ev = .none := rfl
@[simp] theorem hwReset_blink (s : State) : (hwReset s).blink = 0 := rfl
@[simp] theorem hwReset_nv (s : State) : (hwReset s).nv = s.nv := rfl
@[simp] theorem hwReset_locals (s : State) : (hwReset s).locals = .idle := rfl
@[simp] theorem hwReset_answer (s : State) : (hwReset s).answer = some { ok := false, rsp := 0 } := rfl
@[simp] theorem hwReset_bus (s : State) : (hwReset s).bus = [.rest] := rfl
@[simp] theorem hwReset_schedule (s : State) : (hwReset s).schedule = s.schedule := rfl
@[simp] theorem hwReset_cycle (s : State) : (hwReset s).cycle = s.cycle := rfl

/-! ## `offer` -/

@[simp] theorem offer_cfg (w : BitVec 16) (s : State) : (offer w s).cfg = s.cfg := rfl
@[simp] theorem offer_presc (w : BitVec 16) (s : State) : (offer w s).presc = s.presc := rfl
@[simp] theorem offer_tcount (w : BitVec 16) (s : State) : (offer w s).tcount = s.tcount := rfl
@[simp] theorem offer_db (w : BitVec 16) (s : State) : (offer w s).db = s.db := rfl
@[simp] theorem offer_cnt (w : BitVec 16) (s : State) : (offer w s).cnt = s.cnt := rfl
@[simp] theorem offer_encoderValue (w : BitVec 16) (s : State) : (offer w s).encoderValue = s.encoderValue := rfl
@[simp] theorem offer_encoderLastClock (w : BitVec 16) (s : State) : (offer w s).encoderLastClock = s.encoderLastClock := rfl
@[simp] theorem offer_ritT0 (w : BitVec 16) (s : State) : (offer w s).ritT0 = s.ritT0 := rfl
@[simp] theorem offer_ritArmed (w : BitVec 16) (s : State) : (offer w s).ritArmed = s.ritArmed := rfl
@[simp] theorem offer_key (w : BitVec 16) (s : State) : (offer w s).key = s.key := rfl
@[simp] theorem offer_mode (w : BitVec 16) (s : State) : (offer w s).mode = s.mode := rfl
@[simp] theorem offer_beacon (w : BitVec 16) (s : State) : (offer w s).beacon = s.beacon := rfl
@[simp] theorem offer_memTxIndex (w : BitVec 16) (s : State) : (offer w s).memTxIndex = s.memTxIndex := rfl
@[simp] theorem offer_beaconT0 (w : BitVec 16) (s : State) : (offer w s).beaconT0 = s.beaconT0 := rfl
@[simp] theorem offer_pb (w : BitVec 16) (s : State) : (offer w s).pb = s.pb := rfl
@[simp] theorem offer_errcode (w : BitVec 16) (s : State) : (offer w s).errcode = s.errcode := rfl
@[simp] theorem offer_evflags (w : BitVec 16) (s : State) : (offer w s).evflags = s.evflags := rfl
@[simp] theorem offer_ev (w : BitVec 16) (s : State) : (offer w s).ev = s.ev := rfl
@[simp] theorem offer_blink (w : BitVec 16) (s : State) : (offer w s).blink = s.blink := rfl
@[simp] theorem offer_nv (w : BitVec 16) (s : State) : (offer w s).nv = s.nv := rfl
@[simp] theorem offer_locals (w : BitVec 16) (s : State) : (offer w s).locals = s.locals := rfl
@[simp] theorem offer_answer (w : BitVec 16) (s : State) : (offer w s).answer = s.answer := rfl
@[simp] theorem offer_bus (w : BitVec 16) (s : State) : (offer w s).bus = s.bus := rfl
@[simp] theorem offer_schedule (w : BitVec 16) (s : State) : (offer w s).schedule = { pins s with rst := false, cmdValid := true, cmd := w } :: s.schedule.tail := rfl
@[simp] theorem offer_cycle (w : BitVec 16) (s : State) : (offer w s).cycle = s.cycle := rfl

/-! ## `clearStrobe` -/

@[simp] theorem clearStrobe_cfg (s : State) : (clearStrobe s).cfg = s.cfg := by
  unfold clearStrobe; split <;> rfl
@[simp] theorem clearStrobe_presc (s : State) : (clearStrobe s).presc = (if strobe s then 0 else s.presc) := by
  unfold clearStrobe; split <;> rfl
@[simp] theorem clearStrobe_tcount (s : State) : (clearStrobe s).tcount = s.tcount := by
  unfold clearStrobe; split <;> rfl
@[simp] theorem clearStrobe_db (s : State) : (clearStrobe s).db = s.db := by
  unfold clearStrobe; split <;> rfl
@[simp] theorem clearStrobe_cnt (s : State) : (clearStrobe s).cnt = s.cnt := by
  unfold clearStrobe; split <;> rfl
@[simp] theorem clearStrobe_encoderValue (s : State) : (clearStrobe s).encoderValue = s.encoderValue := by
  unfold clearStrobe; split <;> rfl
@[simp] theorem clearStrobe_encoderLastClock (s : State) : (clearStrobe s).encoderLastClock = s.encoderLastClock := by
  unfold clearStrobe; split <;> rfl
@[simp] theorem clearStrobe_ritT0 (s : State) : (clearStrobe s).ritT0 = s.ritT0 := by
  unfold clearStrobe; split <;> rfl
@[simp] theorem clearStrobe_ritArmed (s : State) : (clearStrobe s).ritArmed = s.ritArmed := by
  unfold clearStrobe; split <;> rfl
@[simp] theorem clearStrobe_key (s : State) : (clearStrobe s).key = s.key := by
  unfold clearStrobe; split <;> rfl
@[simp] theorem clearStrobe_mode (s : State) : (clearStrobe s).mode = s.mode := by
  unfold clearStrobe; split <;> rfl
@[simp] theorem clearStrobe_beacon (s : State) : (clearStrobe s).beacon = s.beacon := by
  unfold clearStrobe; split <;> rfl
@[simp] theorem clearStrobe_memTxIndex (s : State) : (clearStrobe s).memTxIndex = s.memTxIndex := by
  unfold clearStrobe; split <;> rfl
@[simp] theorem clearStrobe_beaconT0 (s : State) : (clearStrobe s).beaconT0 = s.beaconT0 := by
  unfold clearStrobe; split <;> rfl
@[simp] theorem clearStrobe_pb (s : State) : (clearStrobe s).pb = s.pb := by
  unfold clearStrobe; split <;> rfl
@[simp] theorem clearStrobe_errcode (s : State) : (clearStrobe s).errcode = s.errcode := by
  unfold clearStrobe; split <;> rfl
@[simp] theorem clearStrobe_evflags (s : State) : (clearStrobe s).evflags = s.evflags := by
  unfold clearStrobe; split <;> rfl
@[simp] theorem clearStrobe_ev (s : State) : (clearStrobe s).ev = s.ev := by
  unfold clearStrobe; split <;> rfl
@[simp] theorem clearStrobe_blink (s : State) : (clearStrobe s).blink = s.blink := by
  unfold clearStrobe; split <;> rfl
@[simp] theorem clearStrobe_nv (s : State) : (clearStrobe s).nv = s.nv := by
  unfold clearStrobe; split <;> rfl
@[simp] theorem clearStrobe_locals (s : State) : (clearStrobe s).locals = s.locals := by
  unfold clearStrobe; split <;> rfl
@[simp] theorem clearStrobe_answer (s : State) : (clearStrobe s).answer = s.answer := by
  unfold clearStrobe; split <;> rfl
@[simp] theorem clearStrobe_bus (s : State) : (clearStrobe s).bus = s.bus := by
  unfold clearStrobe; split <;> rfl
@[simp] theorem clearStrobe_schedule (s : State) : (clearStrobe s).schedule = s.schedule := by
  unfold clearStrobe; split <;> rfl
@[simp] theorem clearStrobe_cycle (s : State) : (clearStrobe s).cycle = s.cycle := by
  unfold clearStrobe; split <;> rfl

end Sys2Proof.Machine
end

