-- ==== Sys2Proof/Laws/Ops.lean ====
section
/-!
SUPPORT. For each shared operation, once, everything it can do. The proofs cite these instead of unfolding it.
-/

namespace Sys2Proof.Machine

/-! ## Outcomes -/

@[simp] theorem andThen_next (s : State) (f : State → Result) : andThen (.next s) f = f s := rfl

@[simp] theorem andThen_fault (r : Fault) (f : State → Result) : andThen (.fault r) f = .fault r := rfl

@[simp] theorem andThen_refused (r : Refusal) (f : State → Result) : andThen (.refused r) f = .refused r := rfl

/-- A sequence answers a next state only through one of its first part. -/
theorem andThen_cases {o : Result} {f : State → Result} {t : State} (h : andThen o f = .next t) :
    ∃ s, o = .next s ∧ f s = .next t := by
  cases o with
  | next s => exact ⟨s, rfl, h⟩
  | fault r => cases h
  | refused r => cases h

/-! ## Storage accesses -/

/-- A read in range goes on with the byte and records the access. -/
theorem nvRead_of_lt {addr : Nat} {s : State} (h : addr < s.cfg.nvSize) (k : Byte → State → Result) :
    nvRead addr k s = k (s.nv.read addr) { s with bus := s.bus ++ [.read addr (s.nv.read addr)] } := if_pos h

theorem nvRead_of_ge {addr : Nat} {s : State} (h : s.cfg.nvSize ≤ addr) (k : Byte → State → Result) :
    nvRead addr k s = .fault (.nvOutOfRange addr) := if_neg (Nat.not_lt.mpr h)

theorem nvWrite_of_lt {addr : Nat} {s : State} (h : addr < s.cfg.nvSize) (v : Byte) :
    nvWrite addr v s = .next { s with nv := s.nv.write addr v, bus := s.bus ++ [.write addr v] } := if_pos h

theorem nvWrite_of_ge {addr : Nat} {s : State} (h : s.cfg.nvSize ≤ addr) (v : Byte) :
    nvWrite addr v s = .fault (.nvOutOfRange addr) := if_neg (Nat.not_lt.mpr h)

/-- The speed a stored byte stands for is written, and the access recorded (46_host_commands.md R269). -/
theorem loadSpeed_of_lt {s : State} (h : s.cfg.nvSpeedAddr < s.cfg.nvSize) :
    loadSpeed s = .next (writeSpeed
      (if s.cfg.keyMinSpeed ≤ (s.nv.read s.cfg.nvSpeedAddr).toNat ∧
          (s.nv.read s.cfg.nvSpeedAddr).toNat ≤ s.cfg.keyMaxSpeed then
        (s.nv.read s.cfg.nvSpeedAddr).extractLsb' 0 5
      else BitVec.ofNat 5 s.cfg.defaultSpeed)
      { s with bus := s.bus ++ [.read s.cfg.nvSpeedAddr (s.nv.read s.cfg.nvSpeedAddr)] }) := by
  rw [loadSpeed, nvRead_of_lt h]

/-- `LoadSpeed` answers a next state only in range. -/
theorem loadSpeed_cases {s t : State} (h : loadSpeed s = .next t) :
    s.cfg.nvSpeedAddr < s.cfg.nvSize ∧ ∃ v, t = writeSpeed v
      { s with bus := s.bus ++ [.read s.cfg.nvSpeedAddr (s.nv.read s.cfg.nvSpeedAddr)] } := by
  by_cases hr : s.cfg.nvSpeedAddr < s.cfg.nvSize
  · rw [loadSpeed_of_lt hr] at h
    cases h
    exact ⟨hr, _, rfl⟩
  · rw [loadSpeed, nvRead_of_ge (Nat.not_lt.mp hr)] at h
    cases h

/-! ## Answers -/

theorem accept_eq (rsp : BitVec 16) (s : State) :
    accept rsp s = .next { s with answer := some { ok := true, rsp := rsp } } := rfl

theorem reject_eq (s : State) :
    reject s = .next { s with
      evflags := s.evflags ||| Flag.mask .cmdRej, answer := some { ok := false, rsp := 0 } } := rfl

@[simp] theorem perform_true (act : State → Result) (s : State) : perform true act s = act s := rfl

@[simp] theorem perform_false (act : State → Result) (s : State) : perform false act s = reject s := rfl

/-- A guarded command either is legal and performed, or is rejected. -/
theorem perform_cases {legal : Bool} {act : State → Result} {s t : State} (h : perform legal act s = .next t) :
    (legal = true ∧ act s = .next t) ∨ (legal = false ∧ reject s = .next t) := by
  cases legal
  · exact .inr ⟨rfl, h⟩
  · exact .inl ⟨rfl, h⟩

/-! ## The choice of the next element -/

/-- `TryStart` starts an element exactly if one is wanted (43_iambic_key_decoder.md R156). -/
theorem chooseElement_eq_none_iff (first : Element) (last : LastElement) (wd ws : Bool) :
    chooseElement first last wd ws = none ↔ wd = false ∧ ws = false := by
  cases wd <;> cases ws <;> cases last <;> simp [chooseElement]

/-- A dot is started only if one is wanted, a dash only if one is wanted. -/
theorem chooseElement_wanted {first : Element} {last : LastElement} {wd ws : Bool} {x : Element}
    (h : chooseElement first last wd ws = some x) : (x = .dot ∧ wd = true) ∨ (x = .dash ∧ ws = true) := by
  cases wd <;> cases ws <;> cases last <;> cases x <;> simp_all [chooseElement]

theorem tryStart_eq (pd ps : Bool) (s : State) :
    tryStart pd ps s =
      (chooseElement s.cfg.squeezeFirst s.key.last (pd || s.key.dot) (ps || s.key.dash)).map
        fun x => startElement x pd ps s := by
  unfold tryStart
  split <;> simp_all

/-! ## The tick step -/

@[simp] theorem exec_tCount (s : State) :
    exec .tCount s = .next { s with tcount := tickCount s.cfg.tcountW (s.tcount.toNat + 1) } := rfl

@[simp] theorem exec_sEdge (s : State) :
    exec .sEdge s = .next (flagIf (rose .keyerBtn s) .keyerPress
      (flagIf (rose .ritBtn s) .ritPress (flagIf (rose .encBtn s) .encBtnPress s))) := rfl

@[simp] theorem exec_tBlink (s : State) : exec .tBlink s = .next { s with blink := blinkOf s.cfg s.tcount } := rfl

/-- No tick sub-operation stops. -/
theorem exec_tick_next (i : Instr) (h : i.isCommand = false) (s : State) : ∃ t, exec i s = .next t := by
  cases i with
  | qAuto =>
    simp only [exec, execQAuto]
    split <;> exact ⟨_, rfl⟩
  | tCount => exact ⟨_, rfl⟩
  | sDebounce raw => exact ⟨_, rfl⟩
  | sEdge => exact ⟨_, rfl⟩
  | sQdec => exact ⟨_, rfl⟩
  | sRitlong => exact ⟨_, rfl⟩
  | kStraight c => exact ⟨_, rfl⟩
  | kIambic pd ps => exact ⟨_, rfl⟩
  | pFeed => exact ⟨_, rfl⟩
  | qBeacon => exact ⟨_, rfl⟩
  | tBlink => exact ⟨_, rfl⟩
  | nop => cases h
  | initDone => cases h
  | select m => cases h
  | confirm => cases h
  | cancel => cases h
  | memDone => cases h
  | fault code => cases h
  | setSpeed speed => cases h
  | setKeymode k => cases h
  | setBeacon b => cases h
  | setMemidx idx => cases h
  | play c => cases h
  | drainEnc => cases h
  | ack mask => cases h
  | reservedE x => cases h
  | reservedF x => cases h

/-! ## The clock cycle -/

theorem clockCycle_reset {s : State} (h : (pins s).rst = true) : clockCycle s = .next (hwReset (beginCycle s)) := by
  simp [clockCycle, h]

theorem clockCycle_tick {s : State} (h : (pins s).rst = false) (hs : strobe s = true) :
    clockCycle s = tickStep (pins s).raw { beginCycle s with presc := 0 } := by
  simp [clockCycle, h, hs]

theorem clockCycle_command {s : State} (h : (pins s).rst = false) (hs : strobe s = false)
    (hv : (pins s).cmdValid = true) :
    clockCycle s = commandStep (pins s).cmd { beginCycle s with presc := s.presc + 1 } := by
  simp [clockCycle, h, hs, hv]

theorem clockCycle_idle {s : State} (h : (pins s).rst = false) (hs : strobe s = false)
    (hv : (pins s).cmdValid = false) : clockCycle s = .next { beginCycle s with presc := s.presc + 1 } := by
  simp [clockCycle, h, hs, hv]

end Sys2Proof.Machine
end

