-- ==== Sys2Proof/Laws/PerInstr.lean ====
section
/-!
SUPPORT. Families of facts about every operation as syntax, one lemma per constructor.
-/

namespace Sys2Proof.Laws

/-- A host command has one command word and a tick sub-operation has none (30_encoding.md R80). -/
def HasWord.Statement (i : Instr) : Prop := (encode i).isSome = i.isCommand

theorem HasWord.nop : HasWord.Statement .nop := rfl

theorem HasWord.initDone : HasWord.Statement .initDone := rfl

theorem HasWord.select (m : BitVec 5) : HasWord.Statement (.select m) := rfl

theorem HasWord.confirm : HasWord.Statement .confirm := rfl

theorem HasWord.cancel : HasWord.Statement .cancel := rfl

theorem HasWord.memDone : HasWord.Statement .memDone := rfl

theorem HasWord.fault (code : BitVec 8) : HasWord.Statement (.fault code) := rfl

theorem HasWord.setSpeed (speed : BitVec 5) : HasWord.Statement (.setSpeed speed) := rfl

theorem HasWord.setKeymode (k : BitVec 1) : HasWord.Statement (.setKeymode k) := rfl

theorem HasWord.setBeacon (b : BitVec 1) : HasWord.Statement (.setBeacon b) := rfl

theorem HasWord.setMemidx (idx : BitVec 8) : HasWord.Statement (.setMemidx idx) := rfl

theorem HasWord.play (c : BitVec 7) : HasWord.Statement (.play c) := rfl

theorem HasWord.drainEnc : HasWord.Statement .drainEnc := rfl

theorem HasWord.ack (mask : BitVec 12) : HasWord.Statement (.ack mask) := rfl

theorem HasWord.reservedE (x : BitVec 12) : HasWord.Statement (.reservedE x) := rfl

theorem HasWord.reservedF (x : BitVec 12) : HasWord.Statement (.reservedF x) := rfl

theorem HasWord.tCount : HasWord.Statement .tCount := rfl

theorem HasWord.sDebounce (raw : Lines Bool) : HasWord.Statement (.sDebounce raw) := rfl

theorem HasWord.sEdge : HasWord.Statement .sEdge := rfl

theorem HasWord.sQdec : HasWord.Statement .sQdec := rfl

theorem HasWord.sRitlong : HasWord.Statement .sRitlong := rfl

theorem HasWord.kStraight (c : Bool) : HasWord.Statement (.kStraight c) := rfl

theorem HasWord.kIambic (pd ps : Bool) : HasWord.Statement (.kIambic pd ps) := rfl

theorem HasWord.pFeed : HasWord.Statement .pFeed := rfl

theorem HasWord.qAuto : HasWord.Statement .qAuto := rfl

theorem HasWord.qBeacon : HasWord.Statement .qBeacon := rfl

theorem HasWord.tBlink : HasWord.Statement .tBlink := rfl

end Sys2Proof.Laws
end

