-- ==== Sys2Proof/Machine/Script.lean ====
section
/-!
DEFINITION. The script syntax in which the spec writes its vectors and programs (30_encoding.md R92, R93): one line, one
step of one agent, so that a script fixes one interleaving of those R70 allows.
-/

namespace Sys2Proof.Machine

/-- A line of a script (R92), with the pseudo-operations of R93. -/
inductive ScriptLine
  /-- `TICK <line>=<v> ...`: one tick step; a line not named keeps its level. -/
  | tick (levels : List (Line × Bool))
  /-- `CMD <MNEMONIC> [operand]`: one command step, the operand within the operand bits of R82. -/
  | cmd (i : Instr)
  /-- `CMD <MNEMONIC> [operand]` with any operand, by its word, such as `SET_SPEED 52`, the word `0x7034` of vector CM5
  (log 17). -/
  | word (w : BitVec 16)
  /-- `READ <REGISTER>`: a register read. -/
  | read (register : BitVec 4)
  /-- `TICKS n <line>=<v> ...`: `n` tick steps, the levels set in the first; a script line only for `n >= 1`. -/
  | ticks (n : Nat) (levels : List (Line × Bool))
  /-- `RESET`: `rst` for one clock cycle, all raw lines 0. -/
  | reset
  /-- `NV[a] = v`: a byte of the launch state; only before the first step, and only a byte that exists (log 17). -/
  | nv (addr : Nat) (v : Byte)
  /-- `EXPECT k: event`: a check on tick step `k` counted from the latest `ORIGIN`. -/
  | expect (k : Nat) (e : Event)
  /-- `ORIGIN`: the next tick step is numbered 0. -/
  | origin
deriving DecidableEq, Repr

/-- `CMD SELECT <mode name>` (R92). -/
def selectMode (m : Mode) : ScriptLine := .cmd (.select m.tag)

/-- `CMD <MNEMONIC> <number>` (R92), by the mnemonic's opcode: the number is the operand field of the word, whether or
not it fits the operand bits of R82; no line for a number above the 12 bits of the field (log 17). -/
def cmdNumber (op : BitVec 4) (n : Nat) : Option ScriptLine :=
  if n < 4096 then some (.word (commandWord op (BitVec.ofNat 12 n))) else none

/-- `CMD PLAY '<character>'` (R92), by the code of 30_encoding.md R88; no line for a character without a 7-bit code
(log 17). -/
def playChar (c : Char) : Option ScriptLine :=
  if c.toNat < 128 then some (.cmd (.play (BitVec.ofNat 7 c.toNat))) else none

/-- A script in progress. -/
structure ScriptRun where
  state : State
  /-- Whether a tick step or a command step has been made (log 17). -/
  begun : Bool
  /-- The level of each raw line, as the latest line that named it left it (R92). -/
  raw : Lines Bool
  /-- The events of the tick steps since the latest `ORIGIN`, in order; none before the first `ORIGIN` (log 17). -/
  events : Option (List Event)
  /-- The registers read, in order. -/
  reads : List Word
  /-- Whether every check so far held. -/
  ok : Bool
deriving DecidableEq, Repr

/-- A script before its first line: all raw lines 0 (R92). -/
def startScript (s : State) : ScriptRun :=
  { state := s, begun := false, raw := .all false, events := none, reads := [], ok := true }

/-- One level assignment of a `TICK` or `TICKS` line (R92). The assignments of a line are made from left to right, so that
of a raw line named twice in one line the later assignment holds: R92 does not say which (DESIGN CHOICE, log 18). -/
def setLevel (raw : Lines Bool) (a : Line × Bool) : Lines Bool := .tabulate fun i => if i = a.1 then a.2 else raw.get i

/-- A step line's state before its step: no command answered and no storage accessed yet (log 6, log 7). -/
def scriptState (r : ScriptRun) : State := { r.state with answer := none, bus := [] }

/-- `TICK` with the levels already set: one tick step, or none if the step stops. -/
def scriptTick (r : ScriptRun) : Option ScriptRun :=
  match tickStep r.raw (scriptState r) with
  | .next t => some { r with state := t, begun := true, events := r.events.map (· ++ [t.ev]) }
  | .fault _ => none
  | .refused _ => none

/-- That many tick steps on the same levels. -/
def scriptTicks : Nat → ScriptRun → Option ScriptRun
  | 0, r => some r
  | n + 1, r => (scriptTick r).bind (scriptTicks n)

/-- `CMD` by its word: one command step, or none if the step stops. -/
def scriptWord (w : BitVec 16) (r : ScriptRun) : Option ScriptRun :=
  match commandStep w (scriptState r) with
  | .next t => some { r with state := t, begun := true }
  | .fault _ => none
  | .refused _ => none

/-- `CMD`: the command step of the mnemonic's word; a tick sub-operation has none and is no command. -/
def scriptCommand (i : Instr) (r : ScriptRun) : Option ScriptRun := (encode i).bind fun w => scriptWord w r

/-- The event of the tick step of that number from the latest `ORIGIN`; none if no such step was made yet (log 17). -/
def scriptEvent (k : Nat) (r : ScriptRun) : Option Event := r.events.bind (·[k]?)

/-- One line of a script, or none where its step stops or R93 does not admit the line: `TICKS 0`, a launch-state
assignment after the first step, and one of a byte from `NV_SIZE` up, of which neither R93 nor 20_memory.md R60 says
what it does (DEDUCED, log 17: R60 gives no such byte). Of a raw line named twice in one line the later level holds
(DESIGN CHOICE, log 18). -/
def runLine (l : ScriptLine) (r : ScriptRun) : Option ScriptRun :=
  match l with
  | .tick levels => scriptTick { r with raw := levels.foldl setLevel r.raw }
  | .cmd i => scriptCommand i r
  | .word w => scriptWord w r
  | .read n => some { r with reads := r.reads ++ [readReg n r.state] }
  | .ticks 0 _ => none
  | .ticks (n + 1) levels => scriptTicks (n + 1) { r with raw := levels.foldl setLevel r.raw }
  | .reset => some { r with state := hwReset r.state, raw := .all false }
  | .nv a v =>
    if r.begun = false ∧ a < r.state.cfg.nvSize then
      some { r with state := { r.state with nv := r.state.nv.write a v } }
    else none
  | .expect k e => some { r with ok := r.ok && decide (scriptEvent k r = some e) }
  | .origin => some { r with events := some [] }

/-- A script, top to bottom. -/
def runScript : List ScriptLine → ScriptRun → Option ScriptRun
  | [], r => some r
  | l :: ls, r => (runLine l r).bind (runScript ls)

end Sys2Proof.Machine
end

