-- ==== Sys2Proof/Laws/Script.lean ====
section
/-!
SUPPORT. Scripts: what a line can do to a script in progress, and how scripts and tick runs compose.
-/

namespace Sys2Proof.Machine

/-- A script is run piece by piece. -/
theorem runScript_append (a b : List ScriptLine) (r : ScriptRun) :
    runScript (a ++ b) r = (runScript a r).bind (runScript b) := by
  induction a generalizing r with
  | nil => rfl
  | cons l a ih => simp [runScript, Option.bind_assoc, ih]

/-- `TICKS` is that many `TICK` lines (30_encoding.md R93). -/
theorem scriptTicks_add (m n : Nat) (r : ScriptRun) :
    scriptTicks (m + n) r = (scriptTicks m r).bind (scriptTicks n) := by
  induction m generalizing r with
  | zero => simp [scriptTicks]
  | succ m ih => rw [Nat.succ_add]; simp [scriptTicks, Option.bind_assoc, ih]

/-- An assignment sets its line and leaves every other. -/
@[simp] theorem setLevel_get (raw : Lines Bool) (a : Line × Bool) (i : Line) :
    (setLevel raw a).get i = if i = a.1 then a.2 else raw.get i := by
  cases i <;> rfl

/-- Of two assignments to one line the later holds (log 18). -/
theorem setLevel_setLevel (raw : Lines Bool) (i : Line) (a b : Bool) :
    setLevel (setLevel raw (i, a)) (i, b) = setLevel raw (i, b) := by
  cases i <;> rfl

/-- R93: `n >= 1`. -/
@[simp] theorem runLine_ticks_zero (levels : List (Line × Bool)) (r : ScriptRun) :
    runLine (.ticks 0 levels) r = none := rfl

/-- R93: `TICKS 1` is `TICK`. -/
theorem runLine_ticks_one (levels : List (Line × Bool)) (r : ScriptRun) :
    runLine (.ticks 1 levels) r = runLine (.tick levels) r := by
  simp [runLine, scriptTicks]

/-- R93: a launch-state assignment only before the first step. -/
theorem runLine_nv_begun (addr : Nat) (v : Byte) {r : ScriptRun} (h : r.begun = true) :
    runLine (.nv addr v) r = none := by
  simp [runLine, h]

/-- R93, 20_memory.md R60: a launch-state assignment stores a byte that exists, before the first step, and nothing
else. -/
theorem runLine_nv_cases {addr : Nat} {v : Byte} {r t : ScriptRun} (h : runLine (.nv addr v) r = some t) :
    r.begun = false ∧ addr < r.state.cfg.nvSize ∧
      t = { r with state := { r.state with nv := r.state.nv.write addr v } } := by
  simp only [runLine] at h
  split at h
  · next hc => exact ⟨hc.1, hc.2, by simpa using h.symm⟩
  · cases h

/-- A tick step begins the script, and appends its event to those since the latest `ORIGIN`. -/
theorem scriptTick_cases {r t : ScriptRun} (h : scriptTick r = some t) :
    ∃ s, tickStep r.raw (scriptState r) = .next s ∧
      t = { r with state := s, begun := true, events := r.events.map (· ++ [s.ev]) } := by
  unfold scriptTick at h
  split at h
  · next s hs => exact ⟨s, hs, by simpa using h.symm⟩
  · cases h
  · cases h

/-- A command step begins the script and leaves the lines, the events and the readings alone. -/
theorem scriptWord_cases {w : BitVec 16} {r t : ScriptRun} (h : scriptWord w r = some t) :
    ∃ s, commandStep w (scriptState r) = .next s ∧ t = { r with state := s, begun := true } := by
  unfold scriptWord at h
  split at h
  · next s hs => exact ⟨s, hs, by simpa using h.symm⟩
  · cases h
  · cases h

/-- A command by its mnemonic is the command step of its word. -/
theorem scriptCommand_cases {i : Instr} {r t : ScriptRun} (h : scriptCommand i r = some t) :
    ∃ w s, encode i = some w ∧ commandStep w (scriptState r) = .next s ∧ t = { r with state := s, begun := true } := by
  obtain ⟨w, hw, h⟩ := Option.bind_eq_some_iff.mp h
  obtain ⟨s, hs, rfl⟩ := scriptWord_cases h
  exact ⟨w, s, hw, hs, rfl⟩

end Sys2Proof.Machine
end

