-- ==== Sys2Proof/Tests/Slice0.lean ====
section
/-!
SUPPORT. Small tests: words written out from the encodings of 30_encoding.md R83, single steps with the results of
95_test_vectors.md and of the rules' worked examples, and for every statement with hypotheses a state that meets them.
-/

namespace Sys2Proof.Tests

open Sys2Proof Sys2Proof.Machine Sys2Proof.Safety

/-! ## Helpers -/

/-- The reset state in that mode. -/
def inMode (m : Mode) : State := { State.reset with mode := m }

/-- The state with that key engine. -/
def withKey (k : KeyState) (s : State) : State := { s with key := k }

/-- A key engine timing an interval at speed 20. -/
def timing (phase : Phase) (last : LastElement) (timer : Nat) : KeyState :=
  { State.reset.key with
    phase := phase, last := last, timer := BitVec.ofNat 16 timer, keyDown := decide (phase = .element) }

/-- The state in which the port levels of the coming cycles are given. -/
def driven (ps : List Config.Pins) (s : State) : State := { s with schedule := ps }

/-- Port levels with every input 0. -/
def quiet : Config.Pins :=
  { rst := false, raw := .all false, cmdValid := false, cmd := 0, rdAddr := 0 }

/-- Whether the outcome is a next state with the property. -/
def nextIs (o : Result) (p : State → Bool) : Bool :=
  match o with
  | .next t => p t
  | .fault _ => false
  | .refused _ => false

/-- Whether the outcome is a rejection that leaves the mode. -/
def rejects (o : Result) (m : Mode) : Bool :=
  nextIs o fun t => decide (t.mode = m ∧ t.evflags.getLsbD 11 = true ∧ t.answer = some { ok := false, rsp := 0 })

/-- No line closed but the dot paddle. -/
def dotOnly : Lines Bool := { Lines.all false with dot := true }

/-! ## Words, bit 15 first, as 30_encoding.md R83 prints them -/

theorem test_word_nop : decode 0b0000000000000000 = .ok .nop := by decide
theorem test_word_initDone : decode 0b0001000000000000 = .ok .initDone := by decide
theorem test_word_select : decode 0b0010000000001100 = .ok (.select 12) := by decide
theorem test_word_confirm : decode 0b0011000000000000 = .ok .confirm := by decide
theorem test_word_cancel : decode 0b0100000000000000 = .ok .cancel := by decide
theorem test_word_memDone : decode 0b0101000000000000 = .ok .memDone := by decide
theorem test_word_fault : decode 0b0110000010000111 = .ok (.fault 0x87) := by decide
theorem test_word_setSpeed : decode 0b0111000000011001 = .ok (.setSpeed 25) := by decide
theorem test_word_setKeymode : decode 0b1000000000000001 = .ok (.setKeymode 1) := by decide
theorem test_word_setBeacon : decode 0b1001000000000001 = .ok (.setBeacon 1) := by decide
theorem test_word_setMemidx : decode 0b1010000010000001 = .ok (.setMemidx 0x81) := by decide
theorem test_word_play : decode 0b1011000001001011 = .ok (.play 75) := by decide
theorem test_word_drainEnc : decode 0b1100000000000000 = .ok .drainEnc := by decide
theorem test_word_ack : decode 0b1101100000000001 = .ok (.ack 0x801) := by decide
theorem test_word_reservedE : decode 0b1110000000000001 = .ok (.reservedE 1) := by decide
theorem test_word_reservedF : decode 0b1111111111111111 = .ok (.reservedF 0xFFF) := by decide

/-- Vectors CM1, CM2: a must-be-zero operand bit. -/
theorem test_malformed_words :
    ([0x0001, 0x1001, 0x3001, 0x4800, 0x5001, 0xC001, 0x6100, 0x8002, 0x9002, 0xA100, 0xB080, 0x7034, 0x2020] :
      List (BitVec 16)).all (fun w => decide (decode w = .error (.operandBitsNotZero (opField w)))) = true := by decide

/-- The encoder, against the words of R255 to R267. -/
theorem test_encode :
    encode (.select 3) = some 0x2003 ∧ encode (.setSpeed 25) = some 0x7019 ∧ encode (.play 75) = some 0xB04B ∧
    encode (.ack 0x200) = some 0xD200 ∧ encode .tCount = none := by decide

theorem test_tableWord : decodeTableWord 16 0x2003 = some (.select 3) ∧ decodeTableWord 0 0 = none ∧
    decodeTableWord 16 0x2020 = none := by decide

/-! ## Ill-formed operands, one for each check of `wellFormed` -/

/-- Vector V40: a tag that cannot be selected. -/
theorem test_illFormed_select : (Instr.select 8).wellFormed Config.conventions = false := by decide
/-- Vector CM5: below and above the range of speeds. -/
theorem test_illFormed_setSpeed :
    (Instr.setSpeed 4).wellFormed Config.conventions = false ∧
    (Instr.setSpeed 31).wellFormed Config.conventions = false := by decide
/-- Vector CM3: `MEM_SLOTS = 2`. -/
theorem test_illFormed_setMemidx : (Instr.setMemidx 2).wellFormed Config.conventions = false := by decide
theorem test_illFormed_reserved :
    (Instr.reservedE 0).wellFormed Config.conventions = false ∧
    (Instr.reservedF 0xFFF).wellFormed Config.conventions = false := by decide
theorem test_wellFormed :
    (Instr.select 12).wellFormed Config.conventions = true ∧ (Instr.setSpeed 5).wellFormed Config.conventions = true ∧
    (Instr.setMemidx 1).wellFormed Config.conventions = true := by decide

/-! ## Commands, one step each -/

theorem test_reset_memory : State.reset.nv.wf = true := by decide

/-- R254: `NOP` in `ERROR` is accepted and changes nothing. -/
theorem test_nop : exec .nop (inMode .error) = .next (answered 0 (inMode .error)) := rfl

/-- R255: stored speed 25. -/
theorem test_initDone :
    nextIs (exec .initDone { State.reset with nv := [(0, 25)] }) (fun t => decide
      (t.mode = .default ∧ t.key.speed = 25 ∧ t.key.dotTime = 48 ∧ t.key.dashTime = 144)) = true := by decide

/-- Vector CM8: an erased byte gives the default speed and stays as it is. -/
theorem test_initDone_erased :
    nextIs (exec .initDone State.reset) (fun t => decide
      (t.mode = .default ∧ t.key.speed = 20 ∧ t.key.dotTime = 60 ∧ t.nv = [])) = true := by decide

/-- R256: `0x2003` in `DEFAULT`; `0x2008` in `DEFAULT` and `0x2003` in `KEYING`. -/
theorem test_select : nextIs (commandStep 0x2003 (inMode .default)) (fun t => decide (t.mode = .adjustCs)) = true := by
  decide
theorem test_select_rejected :
    rejects (commandStep 0x2008 (inMode .default)) .default = true ∧
    rejects (commandStep 0x2003 (inMode .keying)) .keying = true := by decide

/-- Vector CM6: the speed is saved. -/
theorem test_confirm_saves :
    nextIs (exec .confirm { withSpeed 30 (inMode .adjustCs) with nv := [(0, 20)] }) (fun t => decide
      (t.mode = .default ∧ t.key.speed = 30 ∧ t.nv = [(0, 30)])) = true := by decide

/-- Vector V31, first step of the calibration. -/
theorem test_confirm_calibration :
    nextIs (exec .confirm (inMode .calibrationCorrection)) (fun t => decide (t.mode = .calibrationPeakIf)) = true := by
  decide

/-- Vector CM7: the adjustment is dropped. -/
theorem test_cancel_restores :
    nextIs (exec .cancel { withSpeed 30 (inMode .adjustCs) with nv := [(0, 20)] }) (fun t => decide
      (t.mode = .default ∧ t.key.speed = 20 ∧ t.key.dotTime = 60 ∧ t.nv = [(0, 20)])) = true := by decide

/-- R258: an element in flight is cut. -/
theorem test_cancel_playback :
    nextIs (exec .cancel (withKey (timing .element .dash 170)
        { inMode .memSendTx with pb := { pat := 3, rem := 0, active := true } })) (fun t => decide
      (t.mode = .default ∧ t.pb.active = false ∧ t.key.keyDown = false ∧ txEn t = false)) = true := by decide

/-- R259. -/
theorem test_memDone :
    nextIs (exec .memDone { inMode .memSendTx with tcount := 781 }) (fun t => decide
      (t.mode = .default ∧ t.beaconT0 = 781)) = true := by decide

/-- Vector V27: not while a character is playing. -/
theorem test_memDone_playing :
    rejects (exec .memDone { inMode .memSendTx with pb := { pat := 5, rem := 1, active := true } }) .memSendTx = true := by
  decide

/-- Vector V33. -/
theorem test_fault :
    nextIs (commandStep 0x6007 (withKey (timing .element .dot 60) (inMode .keying))) (fun t => decide
      (t.mode = .error ∧ t.errcode = 7 ∧ readReg 2 t = 0x0140 ∧ txEn t = false)) = true := by decide

/-- Vector V34: a second fault is rejected and the first code kept. -/
theorem test_fault_in_error :
    nextIs (exec (.fault 1) { inMode .error with errcode := 7 }) (fun t => decide
      (t.mode = .error ∧ t.errcode = 7 ∧ t.evflags = 0x800)) = true := by decide

/-- Vectors CM4, CM5. -/
theorem test_setSpeed :
    nextIs (commandStep 0x7019 (inMode .adjustCs)) (fun t => decide
      (t.key.speed = 25 ∧ t.key.dotTime = 48 ∧ t.key.dashTime = 144)) = true := by decide
theorem test_setSpeed_rejected :
    rejects (commandStep 0x701F (inMode .adjustCs)) .adjustCs = true ∧
    rejects (commandStep 0x7014 (inMode .default)) .default = true := by decide

/-- R262. -/
theorem test_setKeymode :
    nextIs (commandStep 0x8001 (inMode .default)) (fun t => decide (t.key.mode = .straight)) = true ∧
    rejects (commandStep 0x8001 (inMode .keying)) .keying = true := by decide

/-- R263. -/
theorem test_setBeacon :
    nextIs (commandStep 0x9001 { inMode .default with tcount := 50 }) (fun t => decide
      (t.beacon = true ∧ t.beaconT0 = 50)) = true := by decide

/-- Vector CM3. -/
theorem test_setMemidx :
    nextIs (commandStep 0xA001 (inMode .default)) (fun t => decide (readReg 7 t = 0x0100)) = true ∧
    rejects (commandStep 0xA002 (inMode .default)) .default = true := by decide

/-- Vectors V21, V25. -/
theorem test_play : nextIs (commandStep 0xB04B (inMode .memSendTx)) (fun t => decide (readReg 10 t = 0xB0D)) = true := by
  decide
theorem test_play_space :
    nextIs (commandStep 0xB020 (inMode .memSendTx)) (fun t => decide (readReg 10 t = 0 ∧ t.evflags = 0x200)) = true := by
  decide

/-- R266. -/
theorem test_drainEnc :
    nextIs (exec .drainEnc { inMode .default with encoderValue := 3 }) (fun t => decide
      (t.answer = some { ok := true, rsp := 0xFFFF } ∧ t.encoderValue = 0)) = true := by decide

/-- Vector CM10. -/
theorem test_ack :
    nextIs (commandStep 0xD200 { inMode .default with evflags := 0x212 }) (fun t => decide (t.evflags = 0x012)) = true := by
  decide

/-- Vector CM11. -/
theorem test_reserved :
    rejects (commandStep 0xE000 (inMode .default)) .default = true ∧
    rejects (commandStep 0xFFFF (inMode .error)) .error = true := by decide

/-! ## Tick sub-operations, one step each -/

/-- Vector T2. -/
theorem test_tCount :
    nextIs (exec .tCount { State.reset with
        cfg := { Config.conventions with tcountW := 16 }, tcount := 0xFFFF }) (fun t => decide
      (t.tcount = 0 ∧ t.evflags = 0)) = true := by decide

/-- Vector DB2, the last step of the count and one before it. -/
theorem test_sDebounce :
    nextIs (exec (.sDebounce dotOnly) { State.reset with
        cfg := { Config.conventions with debounceN := 3 }, cnt := { Lines.all 0 with dot := 2 } }) (fun t => decide
      (t.db.dot = true ∧ t.cnt.dot = 0 ∧ t.db.dash = false)) = true ∧
    nextIs (exec (.sDebounce dotOnly) { State.reset with
        cfg := { Config.conventions with debounceN := 3 }, cnt := { Lines.all 0 with dot := 1 } }) (fun t => decide
      (t.db.dot = false ∧ t.cnt.dot = 2)) = true := by decide

/-- Vector DB5. -/
theorem test_sEdge :
    nextIs (exec .sEdge { State.reset with db := { Lines.all false with ritBtn := true, keyerBtn := true } })
      (fun t => decide (t.evflags = 0x0C0)) = true := by decide

/-- Vectors DB6, DB9: one count up, and the saturated count down. -/
theorem test_sQdec :
    nextIs (exec .sQdec { State.reset with
        encoderLastClock := true, db := { Lines.all false with encB := true } }) (fun t => decide
      (readReg 1 t = 0x082)) = true ∧
    nextIs (exec .sQdec { State.reset with encoderLastClock := true, encoderValue := 2 }) (fun t => decide
      (t.encoderValue = 2 ∧ t.encoderLastClock = false)) = true := by decide

/-- R124: one tick before the limit and at it. -/
theorem test_sRitlong :
    nextIs (exec .sRitlong { State.reset with
        db := { Lines.all false with ritBtn := true }, locals := { old := .all true, transitioned := false },
        ritArmed := true, ritT0 := 100, tcount := 2099 }) (fun t => decide
      (t.evflags = 0 ∧ t.ritArmed = true)) = true ∧
    nextIs (exec .sRitlong { State.reset with
        db := { Lines.all false with ritBtn := true }, locals := { old := .all true, transitioned := false },
        ritArmed := true, ritT0 := 100, tcount := 2100 }) (fun t => decide
      (t.evflags = 0x100 ∧ t.ritArmed = false)) = true := by decide

/-- Vector K2. -/
theorem test_kStraight :
    nextIs (exec (.kStraight true) (inMode .default)) (fun t => decide (t.ev = .start ∧ t.key.keyDown = true)) = true ∧
    nextIs (exec (.kStraight false) (withKey { State.reset.key with keyDown := true } (inMode .keying)))
      (fun t => decide (t.ev = .eoe ∧ t.key.keyDown = false)) = true := by decide

/-- Vector V4 after ticks 0 and 60. -/
theorem test_kIambic_start :
    nextIs (exec (.kIambic true false) (inMode .default)) (fun t => decide
      (readReg 2 t = 0x1740 ∧ t.key.timer = 60 ∧ t.ev = .dot)) = true := by decide
theorem test_kIambic_eoe :
    nextIs (exec (.kIambic false true) (withKey (timing .element .dot 1) (inMode .keying))) (fun t => decide
      (readReg 2 t = 0x1948 ∧ t.key.timer = 60 ∧ t.ev = .eoe)) = true := by decide

/-- R237, the worked example at ticks 0 and 540. -/
theorem test_pFeed :
    nextIs (exec .pFeed { inMode .memSendTx with pb := { pat := 5, rem := 2, active := true }, ev := .dot })
      (fun t => decide (t.pb = { pat := 5, rem := 1, active := true })) = true ∧
    nextIs (exec .pFeed { inMode .memSendTx with pb := { pat := 5, rem := 0, active := true }, ev := .eoc })
      (fun t => decide (t.pb.active = false ∧ t.evflags = 0x200)) = true := by decide

/-- R195: no key reset on the way to `KEYING`; the way back at the end of a character. -/
theorem test_qAuto :
    nextIs (exec .qAuto (withKey (timing .element .dot 60) { inMode .default with ev := .dot })) (fun t => decide
      (t.mode = .keying ∧ t.key.phase = .element ∧ t.key.timer = 60)) = true ∧
    nextIs (exec .qAuto { inMode .keying with ev := .eoc, tcount := 541 }) (fun t => decide
      (t.mode = .default ∧ t.beaconT0 = 541)) = true := by decide

/-- Vector V36: at the limit and one tick before it. -/
theorem test_qBeacon :
    nextIs (exec .qBeacon { inMode .default with beacon := true, beaconT0 := 50, tcount := 6050 }) (fun t => decide
      (t.mode = .memSendTx ∧ t.evflags = 0x400)) = true ∧
    nextIs (exec .qBeacon { inMode .default with beacon := true, beaconT0 := 50, tcount := 6049 }) (fun t => decide
      (t.mode = .default ∧ t.evflags = 0)) = true := by decide

/-- Vectors T7, T8, after `T.COUNT`. -/
theorem test_tBlink :
    nextIs (exec .tBlink { State.reset with tcount := 0x100 }) (fun t => decide (t.blink.getLsbD 0 = true)) = true ∧
    nextIs (exec .tBlink { State.reset with tcount := 0x200 }) (fun t => decide (t.blink.getLsbD 0 = false)) = true := by
  decide

/-! ## Whole steps -/

/-- Vector V1, tick 0: the transmitter is keyed from the first tick of the first element. -/
theorem test_tick_first_element :
    nextIs (tickStep dotOnly (inMode .default)) (fun t => decide
      (t.mode = .keying ∧ t.ev = .dot ∧ txEn t = true ∧ t.evflags = 0x002 ∧ t.tcount = 1)) = true := by decide

/-- Vector T9: in `ERROR` the lines are still sampled. -/
theorem test_tick_error :
    nextIs (tickStep { Lines.all false with encBtn := true } (inMode .error)) (fun t => decide
      (t.tcount = 1 ∧ t.db.encBtn = true ∧ t.evflags = 0x020 ∧ t.ev = .none)) = true := by decide

/-- Vector V38: a key event beats the beacon. -/
theorem test_tick_beacon_yields :
    nextIs (tickStep dotOnly { inMode .default with beacon := true, tcount := 5999 }) (fun t => decide
      (t.mode = .keying ∧ t.tcount = 6000 ∧ t.evflags.getLsbD 10 = false)) = true := by decide

/-- Vectors T3 to T6. -/
theorem test_sdiff :
    sdiff 16 0x0010 0xFFF0 = 32 ∧ sdiff 16 0xFFF0 0x0010 = -32 ∧ sdiff 16 0x8000 0 = -32768 ∧
    sdiff 16 0x7FFF 0 = 32767 := by decide

/-- The step takes the word that `withFetchWord` offers. -/
theorem test_withFetchWord :
    nextIs (step (State.reset.withFetchWord 16 0x1000)) (fun t => decide (t.mode = .default)) = true := by decide

/-- Vector Z1. -/
theorem test_reset :
    nextIs (step (driven [{ quiet with rst := true }] { inMode .error with errcode := 7, evflags := 0x801 }))
      (fun t => decide (t.mode = .startup ∧ t.errcode = 0 ∧ t.evflags = 0 ∧ readReg 2 t = 0x0140)) = true := by decide

/-- The `Encode` vectors of 95_test_vectors.md section 2.5. -/
theorem test_encodePattern :
    encodePattern 5 = [.dot, .dash] ∧ encodePattern 13 = [.dash, .dot, .dash] ∧ encodePattern 2 = [.dot] ∧
    encodePattern 76 = [.dot, .dot, .dash, .dash, .dot, .dot] ∧ encodePattern 1 = [] := by decide

/-- Program P6, its first reading. -/
theorem test_script :
    ((runScript [.reset, .cmd .initDone, .tick [(.encA, true), (.encB, true)], .tick [(.encA, false)], .read 1]
      (startScript State.reset)).map fun r => decide (r.reads = [0x082] ∧ r.state.mode = .default)) = some true := by
  decide

/-- The limits of R93: no `TICKS 0`, and no launch-state assignment after a step; one before it is made. -/
theorem test_script_limits :
    runScript [.ticks 0 []] (startScript State.reset) = none ∧
    runScript [.tick [], .nv 0 25] (startScript State.reset) = none ∧
    runScript [.nv 1 25] (startScript State.reset) = none ∧
    ((runScript [.nv 0 25, .reset, .cmd .initDone] (startScript State.reset)).map fun r =>
      decide (r.state.key.speed = 25)) = some true := by decide

/-- Vector CM5: `SET_SPEED 52`, whose operand does not fit its operand bits, is the word `0x7034` and is rejected. -/
theorem test_script_number :
    cmdNumber 7 52 = some (.word 0x7034) ∧ cmdNumber 7 4096 = none ∧
    ((runScript [.word 0x7034] (startScript (inMode .adjustCs))).map fun r =>
      decide (r.state.answer = some { ok := false, rsp := 0 } ∧ r.state.key.speed = 20)) = some true := by decide

/-- Vector CM6 on the storage port (20_memory.md R75): the speed is written at `NV_SPEED_ADDR` and read back. -/
theorem test_nv_ports :
    nextIs (exec .confirm { inMode .adjustCs with bus := [] }) (fun t => decide
      (nvAddrOut t = some 0 ∧ nvWdataOut t = some 20 ∧ nvReOut t = true ∧ nvWeOut t = true)) = true := by decide

/-! ## States and operands that meet the hypotheses of the statements, clause by clause, at the ends of their ranges -/

theorem valid_conventions : Config.conventions.Valid := by constructor <;> decide

/-- A state in the middle of an element that meets every invariant. -/
theorem inv_keying : Inv (withKey (timing .element .dot 60) (driven [quiet] (inMode .keying))) := by
  constructor <;> first | exact valid_conventions | decide | (intro i; cases i <;> decide)

theorem witness_DecodeOfEncodedCommand :
    Instr.isCommand (.ack 0xFFF) = true ∧ Instr.isCommand (.reservedF 0) = true := by decide

theorem witness_EncodeOfDecodedWord : decode 0xFFFF = .ok (.reservedF 0xFFF) ∧ decode 0x0000 = .ok .nop := by decide

theorem witness_ReservedWordsRejected :
    0xE000 ≤ (0xE000#16).toNat ∧ 0xE000 ≤ (0xFFFF#16).toNat := by decide

theorem witness_MalformedWordsRejected :
    (∀ row ∈ opcodeMap, 0x0001#16 &&& row.mask ≠ row.pattern) ∧
    ∀ row ∈ opcodeMap, 0xCFFF#16 &&& row.mask ≠ row.pattern := by decide

/-- A state whose coming cycle has those levels, with that prescaler count (`TICK_DIV = 2`). -/
def coming (p : Config.Pins) (presc : Nat) (m : Mode) : State := { driven [p] (inMode m) with presc := presc }

theorem witness_StepRunsTheTakenCommand :
    let s := coming { quiet with cmdValid := true, cmd := 0x2003 } 0 .default
    (pins s).rst = false ∧ s.presc + 1 < s.cfg.tickDiv ∧ (pins s).cmdValid = true ∧
      decode (pins s).cmd = .ok (.select 3) := by decide

theorem witness_ResetBeatsTickBeatsCommand :
    (pins (coming { quiet with rst := true } 1 .tune)).rst = true ∧
    ((pins (coming quiet 1 .tune)).rst = false ∧
      (coming quiet 1 .tune).presc + 1 = (coming quiet 1 .tune).cfg.tickDiv) ∧
    ((pins (coming { quiet with cmdValid := true } 0 .tune)).cmdValid = true ∧
      (coming quiet 0 .tune).presc + 1 < (coming quiet 0 .tune).cfg.tickDiv) ∧
    (pins (coming quiet 0 .tune)).cmdValid = false := by decide

/-- The four cases of line 7 of the tick step: the sampling keeps `mode` and `key.mode`. -/
theorem witness_TickStepOrder :
    (inMode .default).mode ∈ [Mode.default, .keying, .adjustCs, .memEnter] ∧
    (inMode .memEnter).mode ∈ [Mode.default, .keying, .adjustCs, .memEnter] ∧
    (inMode .default).key.mode = .iambic ∧
    (withKey { State.reset.key with mode := .straight } (inMode .keying)).key.mode = .straight ∧
    (inMode .memSendTx).mode = .memSendTx ∧
    (inMode .error).mode ∉ [Mode.default, .keying, .adjustCs, .memEnter, .memSendTx] := by decide

theorem witness_NopDoesNothing : (1 : BitVec 12) ≠ 0 ∧ (0xFFF : BitVec 12) ≠ 0 := by decide

theorem witness_storage : Config.conventions.nvSpeedAddr < Config.conventions.nvSize ∧
    { Config.conventions with nvSpeedAddr := 1 }.nvSize ≤ { Config.conventions with nvSpeedAddr := 1 }.nvSpeedAddr := by
  decide

theorem witness_InitDoneLoadsSpeedAndEntersDefault :
    (inMode .startup).mode = .startup ∧ (inMode .error).mode ≠ .startup := by decide

theorem witness_SelectEntersTheSelectedMode :
    ((3#5).toNat, Mode.adjustCs) ∈ [(3, Mode.adjustCs), (12, .calibrationCorrection)] ∧
    (inMode .default).mode = .default ∧ (inMode .error).mode ≠ .default ∧
    (2#5).toNat ∉ [3, 4, 5, 6, 7, 9, 12] ∧ (13#5).toNat ∉ [3, 4, 5, 6, 7, 9, 12] := by decide

theorem witness_ConfirmAdvances :
    ((inMode .memSendWait).mode, Mode.memSendTx) ∈ [(Mode.tune, Mode.default), (.memSendWait, .memSendTx)] ∧
    (inMode .adjustCs).mode = .adjustCs ∧
    (inMode .error).mode ∈ [Mode.startup, .default, .keying, .memSendTx, .error] := by decide

theorem witness_CancelReturnsToDefault :
    (inMode .tune).mode ∉ [Mode.startup, .default, .keying, .error, .adjustCs] ∧
    (inMode .calibrationPeakRx).mode ∉ [Mode.startup, .default, .keying, .error, .adjustCs] ∧
    (inMode .adjustCs).mode = .adjustCs ∧ (inMode .startup).mode ∈ [Mode.startup, .default, .keying, .error] := by decide

theorem witness_MemDoneReturnsToDefault :
    (inMode .memSendTx).mode = .memSendTx ∧ (inMode .memSendTx).pb.active = false ∧ (inMode .default).mode ≠ .memSendTx ∧
    { inMode .memSendTx with pb := { pat := 2, rem := 1, active := true } }.pb.active = true := by decide

theorem witness_FaultEntersError : (inMode .startup).mode ≠ .error ∧ (inMode .error).mode = .error := by decide

theorem witness_SetSpeedWritesSpeedAndDurations :
    (inMode .adjustCs).mode = .adjustCs ∧ (inMode .adjustCs).cfg.keyMinSpeed ≤ (5#5).toNat ∧
    (30#5).toNat ≤ (inMode .adjustCs).cfg.keyMaxSpeed ∧ (4#5).toNat < (inMode .adjustCs).cfg.keyMinSpeed ∧
    (inMode .adjustCs).cfg.keyMaxSpeed < (31#5).toNat ∧ (inMode .default).mode ≠ .adjustCs := by decide

theorem witness_SetKeymodeSelectsTheKeyer :
    (inMode .startup).mode = .startup ∧ (inMode .default).mode = .default ∧
    (inMode .keying).mode ≠ .startup ∧ (inMode .keying).mode ≠ .default := by decide

theorem witness_SetBeaconRetakesTheOrigin : (inMode .startup).mode ≠ .error ∧ (inMode .error).mode = .error := by decide

theorem witness_SetMemidxSelectsTheSlot :
    (inMode .keying).mode ≠ .memSendTx ∧ (inMode .keying).mode ≠ .error ∧
    (1#8).toNat < (inMode .keying).cfg.memSlots ∧ (inMode .keying).cfg.memSlots ≤ (2#8).toNat ∧
    (inMode .memSendTx).mode = .memSendTx ∧ (inMode .error).mode = .error := by decide

/-- A pattern of one element (`E`), one of six (`?`), and no pattern (space). -/
theorem witness_PlayLoadsThePattern :
    (inMode .memSendTx).mode = .memSendTx ∧ (inMode .memSendTx).pb.active = false ∧
    (2 ^ 1 ≤ (patternOf Config.conventions 69).toNat ∧ (patternOf Config.conventions 69).toNat < 2 ^ 2) ∧
    (2 ^ 6 ≤ (patternOf Config.conventions 63).toNat ∧ (patternOf Config.conventions 63).toNat < 2 ^ 7) ∧
    (patternOf Config.conventions 32).toNat < 2 ∧ (inMode .default).mode ≠ .memSendTx := by decide

theorem witness_DrainEncReturnsAndClears :
    Instr.isCommand .nop = true ∧ Instr.nop ≠ .drainEnc ∧
    ∃ t a, exec .nop (inMode .default) = .next t ∧ t.answer = some a := ⟨by decide, by decide, _, _, rfl, rfl⟩

theorem witness_TCountIncrementsAndWraps :
    let s := { State.reset with tcount := 0xFFFFFFFF }
    s.tcount.toNat = 2 ^ s.cfg.tcountW - 1 := by decide

/-- Line 5 agrees, flips, and is counted on. -/
theorem witness_DebounceFlipsAfterNSamples :
    let s := { State.reset with cfg := { Config.conventions with debounceN := 3 }, cnt := Lines.all 2 }
    let u := { State.reset with cfg := { Config.conventions with debounceN := 3 }, cnt := Lines.all 1 }
    (Lines.all false).get .dot = s.db.get .dot ∧
    (dotOnly.get .dot ≠ s.db.get .dot ∧ s.cnt.get .dot + 1 = s.cfg.debounceN) ∧
    (dotOnly.get .dot ≠ u.db.get .dot ∧ u.cnt.get .dot + 1 ≠ u.cfg.debounceN) := by decide

theorem witness_StraightKeyFollowsTheContact :
    (inMode .default).key.keyDown = false ∧ (withKey (timing .element .dot 1) (inMode .keying)).key.keyDown = true := by
  decide

theorem witness_IambicIdleStep :
    (inMode .default).key.phase = .idle ∧ chosen true true (inMode .default) = some .dot ∧
    chosen false true (inMode .default) = some .dash ∧ chosen false false (inMode .default) = none := by decide

theorem witness_IambicElementStep :
    (timing .element .dot 1).phase = .element ∧ (timing .element .dot 1).timer.toNat = 1 ∧
    2 ≤ (timing .element .dot 2).timer.toNat := by decide

theorem witness_IambicGapStep :
    (timing .gap .dot 1).phase = .gap ∧ (timing .gap .dot 1).timer.toNat = 1 ∧ 2 ≤ (timing .gap .dot 2).timer.toNat ∧
    chosen true true (withKey (timing .gap .dot 1) (inMode .keying)) = some .dash ∧
    chosen false false (withKey (timing .gap .dot 1) (inMode .keying)) = none := by decide

theorem witness_IambicWaitStep :
    (timing .wait .dash 1).phase = .wait ∧ (timing .wait .dash 1).timer.toNat = 1 ∧
    2 ≤ (timing .wait .dash 2).timer.toNat ∧
    chosen true true (withKey (timing .wait .dash 1) (inMode .keying)) = some .dot ∧
    chosen false false (withKey (timing .wait .dash 1) (inMode .keying)) = none := by decide

theorem witness_FeedConsumesElements :
    let s := { inMode .memSendTx with pb := { pat := 2, rem := 1, active := true }, ev := .dot }
    let e := { inMode .memSendTx with pb := { pat := 2, rem := 0, active := true }, ev := .eoc }
    let n := { inMode .memSendTx with pb := { pat := 2, rem := 0, active := true }, ev := .eoe }
    (s.pb.active = true ∧ (s.ev = .dot ∨ s.ev = .dash) ∧ s.pb.rem ≠ 0) ∧ (e.pb.active = true ∧ e.ev = .eoc) ∧
    (n.ev ≠ .dot ∧ n.ev ≠ .dash ∧ n.ev ≠ .eoc) ∧ (inMode .memSendTx).pb.active = false := by decide

theorem witness_AutoFollowsKeyEvents :
    let a := { inMode .default with ev := .start }
    let b := { inMode .keying with ev := .eoc }
    let c := { inMode .keying with ev := .eoe }
    (a.mode = .default ∧ a.ev ∈ [Event.start, .dot, .dash]) ∧
    (b.mode = .keying ∧ (b.ev = .eoc ∨ (b.key.mode = .straight ∧ b.ev = .eoe))) ∧
    ¬ (c.mode = .default ∧ c.ev ∈ [Event.start, .dot, .dash]) ∧
    ¬ (c.mode = .keying ∧ (c.ev = .eoc ∨ (c.key.mode = .straight ∧ c.ev = .eoe))) := by decide

/-- The limit is reached at tick 6000 and not at tick 5999. -/
theorem witness_BeaconFiresAfterTheInterval :
    let s := { inMode .default with beacon := true, tcount := 6000 }
    s.locals.transitioned = false ∧ s.ev = .none ∧ s.beacon = true ∧
    ((s.cfg.beaconInterval * s.key.dotTime.toNat : Nat) : Int) ≤ sdiff s.cfg.tcountW s.tcount s.beaconT0 ∧
    ¬ ((s.cfg.beaconInterval * s.key.dotTime.toNat : Nat) : Int) ≤ sdiff s.cfg.tcountW 5999 s.beaconT0 := by decide

/-- Vector V29e: an abbreviation for `9`, none for `0`; no digit on either side of the range. -/
theorem witness_PatternSelection :
    let p := { Config.conventions with obscureAbbrev := true, digitAbbrev := [0, 0, 0, 0, 0, 0, 0, 0, 0, 6] }
    (48 ≤ (57#7).toNat ∧ (57#7).toNat ≤ 57 ∧ p.digitAbbrev.getD ((57#7).toNat - 48) 0 ≠ 0) ∧
    p.digitAbbrev.getD ((48#7).toNat - 48) 0 = 0 ∧ (47#7).toNat < 48 ∧ 57 < (58#7).toNat ∧
    Config.conventions.obscureAbbrev = false := by decide

theorem witness_TableIsInternationalMorse :
    ¬ (65 ≤ (64#7).toNat ∧ (64#7).toNat ≤ 90) ∧ ¬ (48 ≤ (64#7).toNat ∧ (64#7).toNat ≤ 57) ∧ (64#7 : BitVec 7) ≠ 63 := by
  decide

theorem witness_InvariantsKeptByEveryStep : ∃ s t, Inv s ∧ step s = .next t := ⟨_, _, inv_keying, rfl⟩

theorem witness_InvariantsHoldAfterReset : Config.conventions.Valid ∧ Memory.wf [(0, 25)] = true :=
  ⟨valid_conventions, by decide⟩

theorem witness_EveryStepCompletes : State.reset.cfg.nvSpeedAddr < State.reset.cfg.nvSize := by decide

theorem witness_ResetRestoresEveryElement : (pins (coming { quiet with rst := true } 0 .error)).rst = true := by decide

theorem witness_ErrorIsLeftOnlyByReset :
    (coming quiet 1 .error).mode = .error ∧ (pins (coming quiet 1 .error)).rst = false ∧
    Instr.isCommand .cancel = true ∧ Instr.cancel ≠ .nop ∧ Instr.cancel ≠ .drainEnc ∧
    ∀ mask, Instr.cancel ≠ .ack mask :=
  ⟨by decide, by decide, by decide, by decide, by decide, fun _ h => by cases h⟩

theorem witness_OnlyTheTabledTransitions :
    (∃ t, exec .initDone State.reset = .next t ∧ t.mode ≠ State.reset.mode) ∧
    ∃ t, exec .qBeacon { inMode .default with beacon := true, tcount := 6000 } = .next t ∧ t.mode ≠ .default :=
  ⟨⟨_, rfl, by decide⟩, _, rfl, by decide⟩

/-- A counter, a mode with its `beacon_t0`, and the flags of bits 5, 8, 9, 10 and 11, each written by a writer. -/
theorem witness_EachElementHasItsWriters :
    (∃ t, exec .tCount State.reset = .next t ∧ t.tcount ≠ State.reset.tcount) ∧
    (∃ t, exec .cancel { inMode .tune with tcount := 9 } = .next t ∧ t.mode ≠ .tune ∧ t.beaconT0 ≠ 0) ∧
    (∃ t, exec .sEdge { State.reset with db := { Lines.all false with encBtn := true } } = .next t ∧
      t.evflags.getLsbD 5 = true) ∧
    (∃ t, exec .sRitlong { State.reset with
        db := { Lines.all false with ritBtn := true }, locals := { old := .all true, transitioned := false },
        ritArmed := true, ritT0 := 100, tcount := 2100 } = .next t ∧ t.evflags.getLsbD 8 = true) ∧
    (∃ t, exec (.play 32) (inMode .memSendTx) = .next t ∧ t.evflags.getLsbD 9 = true) ∧
    (∃ t, exec .confirm (inMode .memSendWait) = .next t ∧ t.evflags.getLsbD 10 = true) ∧
    ∃ t, exec .confirm (inMode .default) = .next t ∧ t.evflags.getLsbD 11 = true :=
  ⟨⟨_, rfl, by decide⟩, ⟨_, rfl, by decide, by decide⟩, ⟨_, rfl, by decide⟩, ⟨_, rfl, by decide⟩,
    ⟨_, rfl, by decide⟩, ⟨_, rfl, by decide⟩, _, rfl, by decide⟩

theorem witness_OnlyTheTabledStorageAccesses :
    ∃ t, exec .confirm { inMode .adjustCs with bus := [] } = .next t ∧
      (1 : Nat) ≠ (inMode .adjustCs).cfg.nvSpeedAddr :=
  ⟨_, rfl, by decide⟩

theorem witness_RejectedCommandChangesOnlyItsFlag :
    ∃ t, commandStep 0xE000 State.reset = .next t ∧ t.answer = some { ok := false, rsp := 0 } := ⟨_, rfl, rfl⟩

theorem witness_LegalityMatrix :
    Instr.isCommand (.reservedE 0) = true ∧ accepted .cancel (inMode .memSendTx) = true ∧
    accepted .cancel (inMode .keying) = false := by decide

/-- The narrowest and the widest counter, each at the last count its law covers. -/
theorem witness_ElapsedIsTheNumberOfTicks :
    ((1 : Nat) ≤ 1 ∧ (1#32 : Word).toNat < 2 ^ 1 ∧ 0 < 2 ^ (1 - 1)) ∧
    ((32 : Nat) ≤ 32 ∧ (0xFFFFFFFF#32 : Word).toNat < 2 ^ 32 ∧ 2 ^ 31 - 1 < 2 ^ (32 - 1)) := by decide

theorem speeds_conventions (x : Nat) (_ : Config.conventions.keyMinSpeed ≤ x)
    (h : x < Config.conventions.keyMaxSpeed) : x * (x + 1) ≤ Config.conventions.dotNum := by
  have h30 : x < 30 := h
  calc x * (x + 1) ≤ 29 * 30 := Nat.mul_le_mul (by omega) (by omega)
    _ ≤ Config.conventions.dotNum := by decide

theorem witness_FasterSpeedsHaveShorterDots :
    (inMode .adjustCs).cfg.Valid ∧ (inMode .adjustCs).cfg.keyMinSpeed ≤ (5#5).toNat ∧ (5#5).toNat < (30#5).toNat ∧
    (30#5).toNat ≤ (inMode .adjustCs).cfg.keyMaxSpeed ∧
    (∃ t, exec (.setSpeed 5) (inMode .adjustCs) = .next t) ∧ ∃ u, exec (.setSpeed 30) (inMode .adjustCs) = .next u :=
  ⟨valid_conventions, by decide, by decide, by decide, ⟨_, rfl⟩, _, rfl⟩

/-- The dot paddle closed at tick 0 only, and closed up to the tick before the decision instant. -/
theorem witness_SingleDotTimeline :
    let s := inMode .default
    let tap : Nat → Bool × Bool := fun k => (decide (k = 0), false)
    let hold : Nat → Bool × Bool := fun k => (decide (k < 120), false)
    s.key.phase = .idle ∧ s.key.dot = false ∧ s.key.dash = false ∧ 1 ≤ s.key.dotTime.toNat ∧
    1 ≤ s.key.dashTime.toNat ∧ (tap 0).1 = true ∧ (hold 0).1 = true ∧
    (∀ k, (tap k).2 = false ∧ (hold k).2 = false) ∧
    ∀ k, 2 * s.key.dotTime.toNat ≤ k → (tap k).1 = false ∧ (hold k).1 = false := by
  refine ⟨by decide, by decide, by decide, by decide, by decide, by decide, by decide, fun _ => ⟨rfl, rfl⟩,
    fun k h => ?_⟩
  have h120 : 120 ≤ k := h
  exact ⟨decide_eq_false (by omega), decide_eq_false (by omega)⟩

theorem witness_ElementRunsItsFullLength :
    (timing .element .dot 1).phase = .element ∧ (timing .element .dot 1).keyDown = true ∧
    0 < (timing .element .dot 1).timer.toNat ∧ 59 + 1 = (timing .element .dot 60).timer.toNat := by decide

theorem witness_OppositePaddleIsRemembered :
    let p : Nat → Bool × Bool := fun k => (decide (k = 0), decide (k = 59))
    let s := withKey (timing .element .dot 60) (inMode .keying)
    let u := withKey (timing .element .dash 1) (inMode .keying)
    (s.key.phase = .element ∧ 59 < s.key.timer.toNat ∧ 1 ≤ s.key.dotTime.toNat ∧ s.key.last = .dot ∧
      (p 59).2 = true) ∧
    (u.key.phase = .element ∧ 0 < u.key.timer.toNat ∧ 1 ≤ u.key.dotTime.toNat ∧ u.key.last = .dash ∧
      (p 0).1 = true) := by decide

theorem witness_SqueezeAlternates :
    let s := inMode .default
    let u := { s with cfg := { s.cfg with squeezeFirst := .dash } }
    let p : Nat → Bool × Bool := fun _ => (true, true)
    s.key.phase = .idle ∧ s.key.last = .none ∧ 1 ≤ s.key.dotTime.toNat ∧ 1 ≤ s.key.dashTime.toNat ∧
    (∀ k, p k = (true, true)) ∧ s.cfg.squeezeFirst = .dot ∧ u.cfg.squeezeFirst = .dash :=
  ⟨by decide, by decide, by decide, by decide, fun _ => rfl, by decide, by decide⟩

/-- The shortest pattern with an element and the longest. -/
theorem witness_PlaybackSendsTheEncodedTimeline :
    let s := { inMode .memSendTx with pb := { pat := 2, rem := 1, active := true } }
    let u := { inMode .memSendTx with pb := { pat := 255, rem := 7, active := true } }
    s.mode = .memSendTx ∧ s.pb.active = true ∧ 2 ≤ s.pb.pat.toNat ∧ s.pb.rem.toNat = patternLength s.pb.pat ∧
    u.pb.rem.toNat = patternLength u.pb.pat ∧ s.key.phase = .idle ∧ s.key.dot = false ∧ s.key.dash = false ∧
    1 ≤ s.key.dotTime.toNat ∧ 1 ≤ s.key.dashTime.toNat := by decide

theorem witness_PaddlesHaveNoEffectInPlayback :
    dotOnly = { Lines.all false with dot := dotOnly.dot, dash := dotOnly.dash } ∧
    (∃ t, tickStep dotOnly (inMode .memSendTx) = .next t) ∧ ∃ u, tickStep (.all false) (inMode .memSendTx) = .next u :=
  ⟨by decide, ⟨_, rfl⟩, _, rfl⟩

theorem witness_TransmitterAndSidetoneGating :
    ∃ s, Inv s ∧ stEn s = true := ⟨_, inv_keying, by decide⟩

/-- No cycle, and the last cycle before a strobe. -/
theorem witness_OneStrobeEveryTickDivCycles :
    let s := driven [quiet] (inMode .default)
    s.presc = 0 ∧ 0 < s.cfg.tickDiv ∧ 1 < s.cfg.tickDiv ∧ 1 ≤ s.schedule.length ∧
    ∀ p ∈ s.schedule, p.rst = false ∧ p.cmdValid = false := by decide

/-- Conventions with the narrowest counter. -/
def narrow : Config.Params := { Config.conventions with tcountW := 16 }

/-- A counter of 16 bits at its end, and bit 16, the first above it; levels that offer no command. -/
theorem witness_ReadPortLayout :
    ∃ s : State, Inv s ∧ s.cfg.tcountW ≤ 16 ∧ s.tcount = 0xFFFF ∧ quiet.cmdValid = false := by
  refine ⟨{ withKey (timing .element .dot 60) (inMode .keying) with cfg := narrow, tcount := 0xFFFF, blink := 7 }, ?_,
    by decide, rfl, rfl⟩
  have hv : narrow.Valid := by constructor <;> decide
  constructor <;> first | exact hv | decide | (intro i; cases i <;> decide)

end Sys2Proof.Tests
end

/-!
SUPPORT and the proof of O43. What a clock cycle with `rst` leaves in every state element (10_state.md R52,
70_reset_and_hazards.md R300).
-/

namespace Sys2Proof

@[simp] theorem Lines.get_tabulate {α : Type} (f : Line → α) (i : Line) : (Lines.tabulate f).get i = f i := by
  cases i <;> rfl

@[simp] theorem Lines.get_all {α : Type} (a : α) (i : Line) : (Lines.all a).get i = a :=
  Lines.get_tabulate _ i

end Sys2Proof

namespace Sys2Proof.Machine

/-- The key engine after a reset: the rows `key.mode` to `key.key_down` of R52's table. -/
@[simp] theorem hwReset_key (s : State) : (hwReset s).key = {
    mode := .iambic, timeout := false, dot := false, dash := false
    speed := BitVec.ofNat 5 s.cfg.defaultSpeed
    dotTime := BitVec.ofNat 16 (s.cfg.dotNum / s.cfg.defaultSpeed)
    dashTime := BitVec.ofNat 16 (3 * (s.cfg.dotNum / s.cfg.defaultSpeed))
    timer := 0, phase := .idle, last := .none, keyDown := false } := rfl

theorem step_reset {s : State} (h : (pins s).rst = true) : step s = .next (hwReset (beginCycle s)) :=
  clockCycle_reset h

/-- Settles O43: a cycle with `rst` answers `hwReset` of the begun cycle (`step_reset`). Every row of R52's table is then
one of the `hwReset_…` rules, with `Lines.get_all` for `db` and `cnt` and `hwReset_key` for the key engine; the storage
and the parameters come through `hwReset` and `beginCycle` unchanged. -/
theorem resetRestoresEveryElement : Obligations.ResetRestoresEveryElement := by
  intro s hrst
  refine ⟨hwReset (beginCycle s), step_reset hrst, ?_⟩
  simp

end Sys2Proof.Machine

/-!
SUPPORT and the proofs of O26 and O27. The press flags of `S.EDGE` and the quadrature count of `S.QDEC`
(41_debounce_sampler.md R122, R123).
-/

namespace Sys2Proof.Machine

/-! ## `S.EDGE` -/

theorem rose_iff (i : Line) (s : State) : rose i s = true ↔ s.db.get i = true ∧ s.locals.old.get i = false := by
  simp [rose]

/-- A flag raised under a condition is a mask of which nothing is left when the condition fails. -/
theorem flagIf_eq (c : Bool) (f : Flag) (s : State) :
    flagIf c f s = { s with evflags := s.evflags ||| if c = true then f.mask else 0 } := by
  cases c
  case false => simp [flagIf]
  case true => rfl

/-- Settles O26: each of the three `flagIf` adds its mask (`flagIf_eq`) exactly if its button rose (`rose_iff`). The
three tests read `db` and `old` of the state `S.EDGE` starts from, so the masks are joined independently. -/
theorem edgeRaisesPressFlags : Obligations.EdgeRaisesPressFlags := by
  intro s
  simp only [exec_sEdge, flagIf_eq, rose_iff]
  rfl

/-! ## `S.QDEC` -/

/-- All four counts are checked: the only one that `+ 1` would wrap is `+1`, where the count stays. -/
theorem encoderUp_toInt (v : BitVec 2) : (encoderUp v).toInt = min 1 (v.toInt + 1) := by
  decide +revert

/-- All four counts are checked: the only one that `- 1` would wrap is `-2`, where the count stays. -/
theorem encoderDown_toInt (v : BitVec 2) : (encoderDown v).toInt = max (-2) (v.toInt - 1) := by
  decide +revert

section
variable {s : State}

theorem exec_sQdec_up (hfall : s.encoderLastClock = true ∧ s.db.encA = false) (hB : s.db.encB = true) :
    exec .sQdec s =
      .next { s with encoderValue := encoderUp s.encoderValue, encoderLastClock := s.db.encA } := by
  simp [exec, execSQdec, hfall, hB]

theorem exec_sQdec_down (hfall : s.encoderLastClock = true ∧ s.db.encA = false) (hB : s.db.encB ≠ true) :
    exec .sQdec s =
      .next { s with encoderValue := encoderDown s.encoderValue, encoderLastClock := s.db.encA } := by
  simp [exec, execSQdec, hfall, hB]

/-- Without a falling edge of A, so also on a rising one, only the last clock is written. -/
theorem exec_sQdec_hold (hfall : ¬ (s.encoderLastClock = true ∧ s.db.encA = false)) :
    exec .sQdec s = .next { s with encoderLastClock := s.db.encA } := by
  simp only [exec, execSQdec, if_neg hfall]

end

/-- Settles O27, by the three branches of R123: no falling edge of A, or one with B at 1 or at 0; the signed value of a
counted step is `encoderUp_toInt` or `encoderDown_toInt`. -/
theorem qdecCountsAndSaturates : Obligations.QdecCountsAndSaturates := by
  intro s
  by_cases hfall : s.encoderLastClock = true ∧ s.db.encA = false
  · by_cases hB : s.db.encB = true
    · refine ⟨encoderUp s.encoderValue, exec_sQdec_up hfall hB, ?_⟩
      rw [if_pos hfall, if_pos hB, encoderUp_toInt]
    · refine ⟨encoderDown s.encoderValue, exec_sQdec_down hfall hB, ?_⟩
      rw [if_pos hfall, if_neg hB, encoderDown_toInt]
  · refine ⟨s.encoderValue, exec_sQdec_hold hfall, ?_⟩
    rw [if_neg hfall]

end Sys2Proof.Machine

/-!
SUPPORT and the proof of O52. What one iambic key step makes of the engine, one equation per branch of the four phase
rules, and the course of a single dot (43_iambic_key_decoder.md R157 to R160, R163).
-/

namespace Sys2Proof.Machine

open Sys2Proof.Safety

section
variable {pd ps : Bool} {s : State}

/-! ## The parts of a phase rule -/

theorem countDown_timer_toNat {n : Nat} (h : s.key.timer.toNat = n + 1) : (countDown s).key.timer.toNat = n := by
  rw [countDown_key]
  bv_omega

/-- The countdown ends in the step that finds the timer at 1. -/
theorem countDown_timer_eq_zero_iff : (countDown s).key.timer = 0 ↔ s.key.timer.toNat = 1 := by
  rw [countDown_key]
  constructor <;> intro h <;> bv_omega

/-- During a dot only the dash paddle is remembered (R157). -/
theorem latchOpposite_of_dot (h : s.key.last = .dot) : latchOpposite pd false s = s := by
  have hother : s.key.last ≠ .dash := by simp [h]
  simp [latchOpposite, hother]

/-- Nothing held and nothing remembered starts nothing (R156). -/
theorem tryStart_of_silent (hdot : s.key.dot = false) (hdash : s.key.dash = false) :
    tryStart false false s = none := by
  simp [tryStart_eq, chooseElement_eq_none_iff, hdot, hdash]

/-- The dot paddle alone, with no dash remembered, starts a dot whatever the last element was (R156). -/
theorem tryStart_of_dot_only (hdash : s.key.dash = false) :
    tryStart true false s = some (startElement .dot true false s) := by
  simp [tryStart_eq, chooseElement, hdash]

/-! ## One key step, phase by phase -/

theorem keyTick_element (h : s.key.phase = .element) :
    keyTick (pd, ps) s = phaseElement pd ps (clearEvent s) := by
  simp [keyTick, exec, execKIambic, clearEvent, h]

theorem keyTick_gap (h : s.key.phase = .gap) : keyTick (pd, ps) s = phaseGap pd ps (clearEvent s) := by
  simp [keyTick, exec, execKIambic, clearEvent, h]

theorem keyTick_wait (h : s.key.phase = .wait) : keyTick (pd, ps) s = phaseWait pd ps (clearEvent s) := by
  simp [keyTick, exec, execKIambic, clearEvent, h]

theorem keyTick_idle (h : s.key.phase = .idle) : keyTick (pd, ps) s = phaseIdle pd ps (clearEvent s) := by
  simp [keyTick, exec, execKIambic, clearEvent, h]

theorem phaseElement_runs (h : s.key.timer.toNat ≠ 1) :
    phaseElement pd ps s = countDown (latchOpposite pd ps s) :=
  if_neg (mt countDown_timer_eq_zero_iff.mp h)

theorem phaseElement_ends (h : s.key.timer.toNat = 1) :
    phaseElement pd ps s = emit .eoe { s with key := { (latchOpposite pd ps s).key with
      keyDown := false, phase := .gap, timer := s.key.dotTime } } :=
  if_pos (countDown_timer_eq_zero_iff.mpr h)

theorem phaseGap_runs (h : s.key.timer.toNat ≠ 1) : phaseGap pd ps s = countDown s :=
  if_neg (mt countDown_timer_eq_zero_iff.mp h)

/-- The decision instant with nothing wanted begins the watch for the character gap (R158). -/
theorem phaseGap_expires (h : s.key.timer.toNat = 1) (hstart : tryStart pd ps (countDown s) = none) :
    phaseGap pd ps s = { s with key := { s.key with phase := .wait, timer := s.key.dashTime } } := by
  simp only [phaseGap, countDown_timer_eq_zero_iff.mpr h, hstart, if_true]
  rfl

theorem phaseWait_runs (h : s.key.timer.toNat ≠ 1) (hstart : tryStart pd ps s = none) :
    phaseWait pd ps s = countDown s := by
  simp only [phaseWait, hstart, if_neg (mt countDown_timer_eq_zero_iff.mp h)]

theorem phaseWait_expires (h : s.key.timer.toNat = 1) (hstart : tryStart pd ps s = none) :
    phaseWait pd ps s = emit .eoc { s with key := { (countDown s).key with
      timeout := true, phase := .idle, last := .none } } := by
  simp only [phaseWait, hstart, if_pos (countDown_timer_eq_zero_iff.mpr h)]
  rfl

theorem phaseIdle_rests (hstart : tryStart pd ps s = none) : phaseIdle pd ps s = s := by
  simp only [phaseIdle, hstart]

theorem phaseIdle_starts {t : State} (hstart : tryStart pd ps s = some t) : phaseIdle pd ps s = t := by
  simp only [phaseIdle, hstart]

end

/-! ## The course of a single dot -/

/-- The event of key step `k` in the course of a single dot (R163). -/
def singleDotEvent (d a k : Nat) : Event :=
  if k = 0 then .dot else if k = d then .eoe else if k = 2 * d + a then .eoc else .none

/-- Where a single dot stands after key step `k`: in the dot, in the gap of one `d` after it, in the character gap of
`a` after that, or at rest. -/
inductive SingleDotStage (d a k : Nat) (key : KeyState) : Prop
  | element (hk : k < d) (phase : key.phase = .element) (last : key.last = .dot) (timer : key.timer.toNat = d - k)
  | gap (low : d ≤ k) (high : k < 2 * d) (phase : key.phase = .gap) (timer : key.timer.toNat = 2 * d - k)
  | wait (low : 2 * d ≤ k) (high : k < 2 * d + a) (phase : key.phase = .wait)
      (timer : key.timer.toNat = 2 * d + a - k)
  | idle (low : 2 * d + a ≤ k) (phase : key.phase = .idle)

/-- The state after key step `k` in the course of a single dot: nothing is ever remembered, and the durations stay. -/
structure SingleDotAt (d a k : Nat) (s : State) : Prop where
  dotTime : s.key.dotTime.toNat = d
  dashTime : s.key.dashTime.toNat = a
  dot : s.key.dot = false
  dash : s.key.dash = false
  ev : s.ev = singleDotEvent d a k
  stage : SingleDotStage d a k s.key

section
variable {d a k : Nat} {pd : Bool} {s : State}

/-- No event falls strictly inside an interval. -/
theorem singleDotEvent_eq_none (h0 : k ≠ 0) (hd : k ≠ d) (ha : k ≠ 2 * d + a) : singleDotEvent d a k = .none := by
  simp [singleDotEvent, h0, hd, ha]

theorem singleDotEvent_at_end (hd : 1 ≤ d) : singleDotEvent d a d = .eoe := by
  have h0 : d ≠ 0 := by omega
  simp [singleDotEvent, h0]

theorem singleDotEvent_at_timeout (hd : 1 ≤ d) : singleDotEvent d a (2 * d + a) = .eoc := by
  have h0 : 2 * d + a ≠ 0 := by omega
  have hend : 2 * d + a ≠ d := by omega
  rw [singleDotEvent, if_neg h0, if_neg hend, if_pos rfl]

theorem singleDotAt_start (hphase : s.key.phase = .idle) (hdash : s.key.dash = false)
    (hd : 1 ≤ s.key.dotTime.toNat) :
    SingleDotAt s.key.dotTime.toNat s.key.dashTime.toNat 0 (keyTick (true, false) s) := by
  have hstart : tryStart true false (clearEvent s) = some (startElement .dot true false (clearEvent s)) :=
    tryStart_of_dot_only hdash
  rw [keyTick_idle hphase, phaseIdle_starts hstart]
  exact ⟨rfl, rfl, rfl, rfl, rfl, .element hd rfl rfl rfl⟩

/-- A step of the dot: the dot paddle has no effect, and the last step emits `EOE` and loads the gap (R157). -/
theorem SingleDotAt.element_step (h : SingleDotAt d a k s) (hk : k < d) (hphase : s.key.phase = .element)
    (hlast : s.key.last = .dot) (htimer : s.key.timer.toNat = d - k) :
    SingleDotAt d a (k + 1) (keyTick (pd, false) s) := by
  have hlatch : latchOpposite pd false (clearEvent s) = clearEvent s := latchOpposite_of_dot hlast
  rw [keyTick_element hphase]
  by_cases hend : k + 1 = d
  case pos =>
    rw [phaseElement_ends (s := clearEvent s) (htimer.trans (by omega)), hlatch]
    refine ⟨h.dotTime, h.dashTime, h.dot, h.dash, ?_, ?_⟩
    · rw [hend, singleDotEvent_at_end (by omega)]
      rfl
    · exact .gap (by omega) (by omega) rfl (h.dotTime.trans (by omega))
  case neg =>
    rw [phaseElement_runs (s := clearEvent s) (htimer.trans_ne (by omega)), hlatch]
    refine ⟨h.dotTime, h.dashTime, h.dot, h.dash, ?_, ?_⟩
    · exact (singleDotEvent_eq_none (by omega) hend (by omega)).symm
    · exact .element (by omega) hphase hlast (countDown_timer_toNat (htimer.trans (by omega)))

/-- A step of the gap: the paddle matters in the last one only, which is the decision instant (R158). -/
theorem SingleDotAt.gap_step (h : SingleDotAt d a k s) (ha : 1 ≤ a) (low : d ≤ k) (high : k < 2 * d)
    (hphase : s.key.phase = .gap) (htimer : s.key.timer.toNat = 2 * d - k)
    (hopen : 2 * d ≤ k + 1 → pd = false) : SingleDotAt d a (k + 1) (keyTick (pd, false) s) := by
  have hev : singleDotEvent d a (k + 1) = .none := singleDotEvent_eq_none (by omega) (by omega) (by omega)
  rw [keyTick_gap hphase]
  by_cases hend : k + 1 = 2 * d
  case pos =>
    have hstart : tryStart false false (countDown (clearEvent s)) = none := tryStart_of_silent h.dot h.dash
    rw [hopen hend.ge, phaseGap_expires (s := clearEvent s) (htimer.trans (by omega)) hstart]
    refine ⟨h.dotTime, h.dashTime, h.dot, h.dash, hev.symm, ?_⟩
    exact .wait hend.ge (by omega) rfl (h.dashTime.trans (by omega))
  case neg =>
    rw [phaseGap_runs (s := clearEvent s) (htimer.trans_ne (by omega))]
    refine ⟨h.dotTime, h.dashTime, h.dot, h.dash, hev.symm, ?_⟩
    exact .gap (by omega) (by omega) hphase (countDown_timer_toNat (htimer.trans (by omega)))

/-- A step of the character gap with the paddles open: the last one emits `EOC` and comes to rest (R159). -/
theorem SingleDotAt.wait_step (h : SingleDotAt d a k s) (hd : 1 ≤ d) (low : 2 * d ≤ k) (high : k < 2 * d + a)
    (hphase : s.key.phase = .wait) (htimer : s.key.timer.toNat = 2 * d + a - k) :
    SingleDotAt d a (k + 1) (keyTick (false, false) s) := by
  have hstart : tryStart false false (clearEvent s) = none := tryStart_of_silent h.dot h.dash
  rw [keyTick_wait hphase]
  by_cases hend : k + 1 = 2 * d + a
  case pos =>
    rw [phaseWait_expires (s := clearEvent s) (htimer.trans (by omega)) hstart]
    refine ⟨h.dotTime, h.dashTime, h.dot, h.dash, ?_, .idle hend.ge rfl⟩
    rw [hend, singleDotEvent_at_timeout hd]
    rfl
  case neg =>
    rw [phaseWait_runs (s := clearEvent s) (htimer.trans_ne (by omega)) hstart]
    refine ⟨h.dotTime, h.dashTime, h.dot, h.dash, ?_, ?_⟩
    · exact (singleDotEvent_eq_none (by omega) (by omega) hend).symm
    · exact .wait (by omega) (by omega) hphase (countDown_timer_toNat (htimer.trans (by omega)))

/-- At rest with the paddles open nothing happens any more (R160). -/
theorem SingleDotAt.idle_step (h : SingleDotAt d a k s) (low : 2 * d + a ≤ k) (hphase : s.key.phase = .idle) :
    SingleDotAt d a (k + 1) (keyTick (false, false) s) := by
  have hstart : tryStart false false (clearEvent s) = none := tryStart_of_silent h.dot h.dash
  rw [keyTick_idle hphase, phaseIdle_rests hstart]
  refine ⟨h.dotTime, h.dashTime, h.dot, h.dash, ?_, .idle (by omega) hphase⟩
  exact (singleDotEvent_eq_none (by omega) (by omega) (by omega)).symm

/-- The course of a single dot is kept by every key step with the dash paddle open, and the dot paddle open from the
decision instant on. -/
theorem SingleDotAt.step (h : SingleDotAt d a k s) (hd : 1 ≤ d) (ha : 1 ≤ a)
    (hopen : 2 * d ≤ k + 1 → pd = false) : SingleDotAt d a (k + 1) (keyTick (pd, false) s) := by
  cases h.stage with
  | element hk phase last timer => exact h.element_step hk phase last timer
  | gap low high phase timer => exact h.gap_step ha low high phase timer hopen
  | wait low high phase timer =>
    rw [hopen (by omega)]
    exact h.wait_step hd low high phase timer
  | idle low phase =>
    rw [hopen (by omega)]
    exact h.idle_step low phase

end

/-- The course of a single dot, by induction on the key steps. -/
theorem singleDotAt_keyAfter {s : State} {p : Nat → Bool × Bool} (hphase : s.key.phase = .idle)
    (hdash : s.key.dash = false) (hd : 1 ≤ s.key.dotTime.toNat) (ha : 1 ≤ s.key.dashTime.toNat)
    (h0 : (p 0).1 = true) (hps : ∀ k, (p k).2 = false)
    (hpd : ∀ k, 2 * s.key.dotTime.toNat ≤ k → (p k).1 = false) (k : Nat) :
    SingleDotAt s.key.dotTime.toNat s.key.dashTime.toNat k (keyAfter p (k + 1) s) := by
  induction k with
  | zero =>
    have hp : p 0 = (true, false) := Prod.ext h0 (hps 0)
    simpa only [keyAfter, hp] using singleDotAt_start hphase hdash hd
  | succ k ih =>
    have hp : p (k + 1) = ((p (k + 1)).1, false) := Prod.ext rfl (hps (k + 1))
    rw [keyAfter, hp]
    exact ih.step hd ha (hpd (k + 1))

/-- Settles O52: the state after key step `k` is the one of a single dot's course (`singleDotAt_keyAfter`), which says
the event. The latch `key.dot` at tick 0 makes no difference: the closed dot paddle wants a dot as well. -/
theorem singleDotTimeline : Obligations.SingleDotTimeline := by
  intro s p hphase _ hdash hd ha h0 hps hpd k
  exact (singleDotAt_keyAfter hphase hdash hd ha h0 hps hpd k).ev

end Sys2Proof.Machine

/-!
SUPPORT and the proof of O58. The transmitter and sidetone enables by their formulas, and where the invariants let the
key be down (44_mode_sequencer.md R202).
-/

namespace Sys2Proof.Machine

open Sys2Proof.Safety

/-! ## The two enables -/

theorem Mode.txKey_iff (m : Mode) : m.txKey = true ↔ m = .keying ∨ m = .memSendTx := by
  simp [Mode.txKey]

theorem txEn_iff (s : State) :
    txEn s = true ↔ ((s.mode = .keying ∨ s.mode = .memSendTx) ∧ s.key.keyDown = true) ∨ s.mode = .tune := by
  simp [txEn, Mode.txKey_iff]

theorem stEn_iff (s : State) : stEn s = true ↔ s.key.keyDown = true ∧ s.mode ≠ .error := by
  simp [stEn]

/-! ## Where the key can be down -/

/-- In a mode without a key step the key is up by item 8 of R51, and in `DEFAULT` by item 7. -/
theorem mode_of_keyDown {s : State} (hinv : Inv s) (hdown : s.key.keyDown = true) :
    s.mode ∈ [Mode.keying, .adjustCs, .memEnter, .memSendTx] := by
  have hdefault : s.mode ≠ .default := by
    intro hmode
    obtain ⟨_, hup⟩ := hinv.defaultRest hmode
    exact absurd hdown (by simp [hup])
  have hkeyStep : s.mode ∈ [Mode.default, .keying, .adjustCs, .memEnter, .memSendTx] := by
    by_contra hother
    obtain ⟨_, hup, _⟩ := hinv.otherModesRest hother
    exact absurd hdown (by simp [hup])
  exact (List.mem_cons.mp hkeyStep).resolve_left hdefault

/-- Settles O58: the two formulas are `txEn_iff` and `stEn_iff`, and a sidetone means the key is down, which under the
invariants leaves only the modes of `mode_of_keyDown`. -/
theorem transmitterAndSidetoneGating : Obligations.TransmitterAndSidetoneGating := by
  intro s
  refine ⟨txEn_iff s, stEn_iff s, fun hinv hst => ?_⟩
  obtain ⟨hdown, _⟩ := (stEn_iff s).mp hst
  exact mode_of_keyDown hinv hdown

end Sys2Proof.Machine

/-!
SUPPORT and the proofs of O4, O10, O15, O16, O17, O20, O22 and O23. The host commands (46_host_commands.md): how a word
with its operand decodes (30_encoding.md R81 to R83), and the meaning of each command in the terms of the claims.
-/

namespace Sys2Proof

/-! ## The word of an opcode and an operand

The word of a row with the pattern `p` has the operand `x` in its low bits: `p ||| x.setWidth 16`. -/

section
variable {n : Nat} {p mask pattern : BitVec 16}

/-- The row's own test: the operand bits that its mask leaves free do not show through. -/
theorem operandWord_and_mask (x : BitVec n) (hp : p &&& mask = p) (hfree : mask.setWidth n = 0) :
    (p ||| x.setWidth 16) &&& mask = p := by
  ext i hi
  have hpi := congrArg (·.getLsbD i) hp
  have hfreei := congrArg (·.getLsbD i) hfree
  by_cases hin : i < n <;> grind

/-- An operand of at most twelve bits leaves the opcode field alone, and every mask keeps it. -/
theorem opField_operandWord_and_mask (x : BitVec n) (hn : n ≤ 12) (hmask : opField mask = 0xF) :
    opField ((p ||| x.setWidth 16) &&& mask) = opField p := by
  have hx : (x.setWidth 16).extractLsb' 12 4 = 0#4 := by
    ext i hi
    simp [BitVec.getLsbD_of_ge x (12 + i) (by omega)]
  have hkept : mask.extractLsb' 12 4 = BitVec.allOnes 4 := hmask
  simp only [opField, BitVec.extractLsb'_and, BitVec.extractLsb'_or, hx, hkept, BitVec.or_zero, BitVec.and_allOnes]

/-- The test of a row with another opcode fails. -/
theorem operandWord_and_mask_ne (x : BitVec n) (hn : n ≤ 12) (hmask : opField mask = 0xF)
    (hop : opField p ≠ opField pattern) : (p ||| x.setWidth 16) &&& mask ≠ pattern := by
  rintro rfl
  exact hop (opField_operandWord_and_mask x hn hmask).symm

theorem operandWord_extractLsb' (x : BitVec n) (hn : n ≤ 16) (hp : p.setWidth n = 0#n) :
    (p ||| x.setWidth 16).extractLsb' 0 n = x := by
  rw [← BitVec.setWidth_eq_extractLsb' hn, BitVec.setWidth_or, hp, BitVec.zero_or,
    BitVec.setWidth_setWidth_of_le x hn, BitVec.setWidth_eq]

end

theorem commandWord_eq_operandWord (op : BitVec 4) (arg : BitVec 12) :
    commandWord op arg = commandWord op 0 ||| arg.setWidth 16 := by
  ext i hi
  simp only [commandWord]
  grind

theorem commandWord_fields (w : BitVec 16) : commandWord (opField w) (argField w) = w :=
  BitVec.extractLsb'_append_extractLsb' (w := 4) (len := 12)

/-- A word of the opcode is its row's pattern with the word's operand field. -/
theorem eq_operandWord_of_opField {w : BitVec 16} {op : BitVec 4} (h : opField w = op) :
    w = commandWord op 0 ||| (argField w).setWidth 16 := by
  rw [← commandWord_eq_operandWord, ← h, commandWord_fields]

/-! ## The decoder on the words of an opcode

Along the decoder's rows, those of another opcode fail (`operandWord_and_mask_ne`), the word's own row holds
(`operandWord_and_mask`), and the operand is read back (`operandWord_extractLsb'`). -/

theorem decode_fault (code : BitVec 8) : decode (0x6000 ||| code.setWidth 16) = .ok (.fault code) := by
  simp (disch := decide) only [decode, operandWord_and_mask_ne, operandWord_and_mask, operandWord_extractLsb',
    BitVec.reduceEq, reduceIte]

theorem decode_setSpeed (v : BitVec 5) : decode (0x7000 ||| v.setWidth 16) = .ok (.setSpeed v) := by
  simp (disch := decide) only [decode, operandWord_and_mask_ne, operandWord_and_mask, operandWord_extractLsb',
    BitVec.reduceEq, reduceIte]

theorem decode_setMemidx (i : BitVec 8) : decode (0xA000 ||| i.setWidth 16) = .ok (.setMemidx i) := by
  simp (disch := decide) only [decode, operandWord_and_mask_ne, operandWord_and_mask, operandWord_extractLsb',
    BitVec.reduceEq, reduceIte]

theorem decode_ack (mask : BitVec 12) : decode (0xD000 ||| mask.setWidth 16) = .ok (.ack mask) := by
  simp (disch := decide) only [decode, argField, operandWord_and_mask_ne, operandWord_and_mask,
    operandWord_extractLsb', BitVec.reduceEq, reduceIte]

theorem decode_reservedE (x : BitVec 12) : decode (0xE000 ||| x.setWidth 16) = .ok (.reservedE x) := by
  simp (disch := decide) only [decode, argField, operandWord_and_mask_ne, operandWord_and_mask,
    operandWord_extractLsb', BitVec.reduceEq, reduceIte]

theorem decode_reservedF (x : BitVec 12) : decode (0xF000 ||| x.setWidth 16) = .ok (.reservedF x) := by
  simp (disch := decide) only [decode, argField, operandWord_and_mask_ne, operandWord_and_mask,
    operandWord_extractLsb', BitVec.reduceEq, reduceIte]

/-- The words from 0xE000 up are those of the two reserved opcodes (R268). -/
theorem opField_of_reserved {w : BitVec 16} (h : 0xE000 ≤ w.toNat) : opField w = 0xE ∨ opField w = 0xF := by
  have hfield : (opField w).toNat = w.toNat / 4096 := by
    rw [opField, BitVec.extractLsb'_toNat, Nat.shiftRight_eq_div_pow]
    omega
  bv_omega

theorem decode_of_reserved {w : BitVec 16} (h : 0xE000 ≤ w.toNat) :
    decode w = .ok (.reservedE (argField w)) ∨ decode w = .ok (.reservedF (argField w)) := by
  obtain hop | hop := opField_of_reserved h
  · left
    exact (congrArg decode (eq_operandWord_of_opField hop)).trans (decode_reservedE _)
  · right
    exact (congrArg decode (eq_operandWord_of_opField hop)).trans (decode_reservedF _)

/-- Every operand bit of `NOP` must be zero (R82): its row tests the whole word. -/
theorem decode_nop_operand {arg : BitVec 12} (h : arg ≠ 0) : ∃ e, decode (commandWord 0x0 arg) = .error e := by
  have hword : commandWord 0x0 arg = 0 ||| arg.setWidth 16 := commandWord_eq_operandWord 0x0 arg
  have hrow : (0 ||| arg.setWidth 16) &&& 0xFFFF ≠ (0x0000 : BitVec 16) := by
    intro hzero
    have hnone : 0 ||| arg.setWidth 16 = (0x0000 : BitVec 16) := BitVec.and_allOnes.symm.trans hzero
    have hread := operandWord_extractLsb' (p := 0) arg (by decide) rfl
    exact h (hread.symm.trans (congrArg (·.extractLsb' 0 12) hnone))
  refine ⟨.operandBitsNotZero (opField (0 ||| arg.setWidth 16)), ?_⟩
  rw [hword]
  simp (disch := decide) only [decode, hrow, operandWord_and_mask_ne, if_false]

end Sys2Proof

namespace Sys2Proof.Machine

open Sys2Proof.Safety

/-! ## A command step -/

theorem commandStep_of_decode {w : BitVec 16} {i : Instr} (h : decode w = .ok i) (s : State) :
    commandStep w s = exec i s := by
  simp only [commandStep, h]

theorem accept_answered (rsp : BitVec 16) (s : State) : accept rsp s = .next (answered rsp s) := rfl

theorem reject_rejected (s : State) : reject s = .next (rejected s) := rfl

theorem commandStep_of_error {w : BitVec 16} {e : DecodeError} (h : decode w = .error e) (s : State) :
    commandStep w s = .next (rejected s) := by
  simp only [commandStep, h, reject_rejected]

/-- A guarded command under the condition that its rule states. -/
theorem perform_eq_ite {legal : Bool} {P : Prop} [Decidable P] (h : legal = true ↔ P) (act : State → Result)
    (s : State) : perform legal act s = if P then act s else .next (rejected s) := by
  by_cases hP : P
  · rw [if_pos hP, h.mpr hP, perform_true]
  · rw [if_neg hP, Bool.eq_false_iff.mpr (mt h.mp hP), perform_false, reject_rejected]

/-- Only the transition to `KEYING` can keep the key engine running (R196). -/
theorem enter_eq_entered {m : Mode} (hm : m ≠ .keying) (s : State) : enter m s = entered m s := by
  have hreset : ¬ (s.mode = .default ∧ m = .keying) := fun ⟨_, hkeying⟩ => hm hkeying
  simp only [enter, if_neg hreset]
  by_cases hdefault : m = .default
  · subst hdefault
    rfl
  · by_cases hplay : m = .memSendTx
    · subst hplay
      rfl
    · simp [hdefault, hplay, flagIf, entered, clearPlayback, keyReset, atRest]

theorem writeSpeed_eq_withSpeed (v : BitVec 5) (s : State) : writeSpeed v s = withSpeed v s := rfl

/-! ## The meaning of each command -/

theorem exec_memDone (s : State) :
    exec .memDone s =
      if s.mode = .memSendTx ∧ s.pb.active = false then .next (answered 0 (entered .default s))
      else .next (rejected s) := by
  have hlegal : (decide (s.mode = .memSendTx) && !s.pb.active) = true ↔
      s.mode = .memSendTx ∧ s.pb.active = false := by
    simp
  simp only [exec, execMemDone, perform_eq_ite hlegal, accept_answered,
    enter_eq_entered (m := .default) (by decide)]

theorem exec_fault (code : BitVec 8) (s : State) :
    exec (.fault code) s =
      if s.mode ≠ .error then .next (answered 0 (entered .error { s with errcode := code }))
      else .next (rejected s) := by
  simp only [exec, execFault, perform_eq_ite decide_eq_true_iff, accept_answered, raiseFault,
    enter_eq_entered (m := .error) (by decide)]

theorem exec_setSpeed (v : BitVec 5) (s : State) :
    exec (.setSpeed v) s =
      if s.mode = .adjustCs ∧ s.cfg.keyMinSpeed ≤ v.toNat ∧ v.toNat ≤ s.cfg.keyMaxSpeed then
        .next (answered 0 (withSpeed v s))
      else .next (rejected s) := by
  have hlegal : (decide (s.mode = .adjustCs) && speedLegal s.cfg v) = true ↔
      s.mode = .adjustCs ∧ s.cfg.keyMinSpeed ≤ v.toNat ∧ v.toNat ≤ s.cfg.keyMaxSpeed := by
    simp [speedLegal]
  simp only [exec, execSetSpeed, perform_eq_ite hlegal, accept_answered, writeSpeed_eq_withSpeed]

theorem exec_setMemidx (i : BitVec 8) (s : State) :
    exec (.setMemidx i) s =
      if s.mode ≠ .memSendTx ∧ s.mode ≠ .error ∧ i.toNat < s.cfg.memSlots then
        .next (answered 0 { s with memTxIndex := i })
      else .next (rejected s) := by
  have hlegal : (decide (s.mode ≠ .memSendTx) && decide (s.mode ≠ .error) && slotLegal s.cfg i) = true ↔
      s.mode ≠ .memSendTx ∧ s.mode ≠ .error ∧ i.toNat < s.cfg.memSlots := by
    simp [slotLegal, and_assoc]
  simp only [exec, execSetMemidx, perform_eq_ite hlegal, accept_answered]

/-- In `ERROR` with the key up every enable is low (R202). -/
theorem outputs_entered_error (rsp : BitVec 16) (s : State) :
    txEn (answered rsp (entered .error s)) = false ∧ stEn (answered rsp (entered .error s)) = false ∧
      keyDownOut (answered rsp (entered .error s)) = false :=
  ⟨rfl, rfl, rfl⟩

/-! ## The response value -/

/-- The outcome, if it is a next state with an answer, has the response value 0. -/
def AnswersZero (o : Result) : Prop := ∀ (t : State) (a : Answer), o = .next t → t.answer = some a → a.rsp = 0

theorem answersZero_accept (s : State) : AnswersZero (accept 0 s) := by
  intro t a ht ha
  cases ht
  cases ha
  rfl

theorem answersZero_reject (s : State) : AnswersZero (reject s) := by
  intro t a ht ha
  cases ht
  cases ha
  rfl

theorem answersZero_perform {act : State → Result} (h : ∀ s, AnswersZero (act s)) (legal : Bool) (s : State) :
    AnswersZero (perform legal act s) := by
  cases legal
  · exact answersZero_reject s
  · exact h s

/-- In a sequence the last part answers. -/
theorem answersZero_andThen {f : State → Result} (h : ∀ s, AnswersZero (f s)) (o : Result) :
    AnswersZero (andThen o f) := by
  intro t a ht
  obtain ⟨s, _, hs⟩ := andThen_cases ht
  exact h s t a hs

theorem answersZero_select (m : BitVec 5) (s : State) : AnswersZero (execSelect m s) := by
  unfold execSelect
  split
  case h_1 target _ => exact answersZero_perform (fun s => answersZero_accept (enter target s)) _ s
  case h_2 => exact answersZero_reject s

theorem answersZero_confirm (s : State) : AnswersZero (execConfirm s) := by
  unfold execConfirm
  split
  case h_1 target _ => exact answersZero_andThen (fun s => answersZero_accept (enter target s)) _
  case h_2 => exact answersZero_reject s

/-- Every command but `DRAIN_ENC` ends in `accept 0` or in `reject`. -/
theorem answersZero_exec {i : Instr} (hcommand : i.isCommand = true) (hdrain : i ≠ .drainEnc) (s : State) :
    AnswersZero (exec i s) := by
  cases i with
  | nop => exact answersZero_accept s
  | initDone =>
    exact answersZero_perform
      (fun s => answersZero_andThen (fun t => answersZero_accept (enter .default t)) (loadSpeed s)) _ s
  | select m => exact answersZero_select m s
  | confirm => exact answersZero_confirm s
  | cancel =>
    exact answersZero_perform
      (fun s => answersZero_andThen (fun t => answersZero_accept (enter .default t)) (cancelRestore s)) _ s
  | memDone => exact answersZero_perform (fun _ => answersZero_accept _) _ s
  | fault code => exact answersZero_perform (fun _ => answersZero_accept _) _ s
  | setSpeed speed => exact answersZero_perform (fun _ => answersZero_accept _) _ s
  | setKeymode k => exact answersZero_perform (fun _ => answersZero_accept _) _ s
  | setBeacon b => exact answersZero_perform (fun _ => answersZero_accept _) _ s
  | setMemidx idx => exact answersZero_perform (fun _ => answersZero_accept _) _ s
  | play c => exact answersZero_perform (fun _ => answersZero_accept _) _ s
  | drainEnc => exact absurd rfl hdrain
  | ack mask => exact answersZero_accept _
  | reservedE x => exact answersZero_reject s
  | reservedF x => exact answersZero_reject s
  | _ => cases hcommand

/-! ## The claims -/

/-- Settles O4: a word from 0xE000 up decodes to one of the two reserved operations (`decode_of_reserved`), and their
meaning is `reject` whatever the operand. -/
theorem reservedWordsRejected : Obligations.ReservedWordsRejected := by
  refine ⟨fun w s hw => ?_, fun x s => ⟨reject_rejected s, reject_rejected s⟩⟩
  obtain hdec | hdec := decode_of_reserved hw <;> exact commandStep_of_decode hdec s

/-- Settles O10: the word 0x0000 is `NOP`'s only one, since any other operand is a decode error
(`decode_nop_operand`). -/
theorem nopDoesNothing : Obligations.NopDoesNothing := by
  refine fun s => ⟨accept_answered 0 s, commandStep_of_decode (i := .nop) rfl s, fun arg harg => ?_⟩
  obtain ⟨e, hdec⟩ := decode_nop_operand harg
  exact commandStep_of_error hdec s

/-- Settles O15, by the two branches of `exec_memDone`. -/
theorem memDoneReturnsToDefault : Obligations.MemDoneReturnsToDefault := by
  intro s
  rw [exec_memDone]
  refine ⟨(commandStep_of_decode rfl s).trans (exec_memDone s), fun hmode hidle => if_pos ⟨hmode, hidle⟩,
    fun h => if_neg ?_⟩
  rwa [not_and_or, Bool.not_eq_false]

/-- Settles O16, by the two branches of `exec_fault`; the outputs of the state entered are `outputs_entered_error`. -/
theorem faultEntersError : Obligations.FaultEntersError := by
  intro code s
  refine ⟨commandStep_of_decode (decode_fault code) s, fun hmode => ⟨?_, outputs_entered_error 0 _⟩,
    fun hmode => ?_⟩
  · rw [exec_fault, if_pos hmode]
  · rw [exec_fault, if_neg (not_not.mpr hmode)]

/-- Settles O17, by the two branches of `exec_setSpeed`. -/
theorem setSpeedWritesSpeedAndDurations : Obligations.SetSpeedWritesSpeedAndDurations := by
  intro v s
  refine ⟨commandStep_of_decode (decode_setSpeed v) s, fun hmode hlow hhigh => ?_, fun h => ?_⟩
  · rw [exec_setSpeed, if_pos ⟨hmode, hlow, hhigh⟩]
  · rw [exec_setSpeed, if_neg]
    rwa [not_and_or, not_and_or, not_le, not_le]

/-- Settles O20, by the two branches of `exec_setMemidx`. -/
theorem setMemidxSelectsTheSlot : Obligations.SetMemidxSelectsTheSlot := by
  intro i s
  refine ⟨commandStep_of_decode (decode_setMemidx i) s, fun hsend herror hslot => ?_, fun h => ?_⟩
  · rw [exec_setMemidx, if_pos ⟨hsend, herror, hslot⟩]
  · rw [exec_setMemidx, if_neg]
    rwa [not_and_or, not_and_or, not_ne_iff, not_ne_iff, not_lt]

/-- Settles O22: sign extension keeps the signed value, and every other command answers 0 (`answersZero_exec`). -/
theorem drainEncReturnsAndClears : Obligations.DrainEncReturnsAndClears := by
  refine ⟨fun s => ⟨commandStep_of_decode rfl s, s.encoderValue.signExtend 16, ?_, accept_answered _ _⟩, ?_⟩
  · exact BitVec.toInt_signExtend_of_le (by decide)
  · intro i s t a hcommand hdrain
    exact answersZero_exec hcommand hdrain s t a

/-- Settles O23: `ACK` is always performed, so its meaning is `accept` of the masked flags. -/
theorem ackClearsExactlyTheNamedFlags : Obligations.AckClearsExactlyTheNamedFlags :=
  fun mask s => ⟨commandStep_of_decode (decode_ack mask) s, accept_answered 0 _⟩

end Sys2Proof.Machine

/-!
SUPPORT and the proofs of O1, O2, O3, O5 and O6. The words of 30_encoding.md: each command's word and back, and the
rows of the opcode map (R81 to R83, R89).
-/

namespace Sys2Proof

/-! ## From a command to its word -/

/-- An operand of a row is the low end of the operand field. -/
theorem commandWord_setWidth (op : BitVec 4) {n : Nat} (x : BitVec n) (hn : n ≤ 12) :
    commandWord op (x.setWidth 12) = commandWord op 0 ||| x.setWidth 16 := by
  rw [commandWord_eq_operandWord, BitVec.setWidth_setWidth (by omega)]

theorem decode_select (m : BitVec 5) : decode (0x2000 ||| m.setWidth 16) = .ok (.select m) := by
  simp (disch := decide) only [decode, operandWord_and_mask_ne, operandWord_and_mask, operandWord_extractLsb',
    BitVec.reduceEq, reduceIte]

theorem decode_setKeymode (k : BitVec 1) : decode (0x8000 ||| k.setWidth 16) = .ok (.setKeymode k) := by
  simp (disch := decide) only [decode, operandWord_and_mask_ne, operandWord_and_mask, operandWord_extractLsb',
    BitVec.reduceEq, reduceIte]

theorem decode_setBeacon (b : BitVec 1) : decode (0x9000 ||| b.setWidth 16) = .ok (.setBeacon b) := by
  simp (disch := decide) only [decode, operandWord_and_mask_ne, operandWord_and_mask, operandWord_extractLsb',
    BitVec.reduceEq, reduceIte]

theorem decode_play (c : BitVec 7) : decode (0xB000 ||| c.setWidth 16) = .ok (.play c) := by
  simp (disch := decide) only [decode, operandWord_and_mask_ne, operandWord_and_mask, operandWord_extractLsb',
    BitVec.reduceEq, reduceIte]

theorem encode_select (m : BitVec 5) : encode (.select m) = some (0x2000 ||| m.setWidth 16) :=
  congrArg some (commandWord_setWidth 0x2 m (by decide))

theorem encode_fault (code : BitVec 8) : encode (.fault code) = some (0x6000 ||| code.setWidth 16) :=
  congrArg some (commandWord_setWidth 0x6 code (by decide))

theorem encode_setSpeed (v : BitVec 5) : encode (.setSpeed v) = some (0x7000 ||| v.setWidth 16) :=
  congrArg some (commandWord_setWidth 0x7 v (by decide))

theorem encode_setKeymode (k : BitVec 1) : encode (.setKeymode k) = some (0x8000 ||| k.setWidth 16) :=
  congrArg some (commandWord_setWidth 0x8 k (by decide))

theorem encode_setBeacon (b : BitVec 1) : encode (.setBeacon b) = some (0x9000 ||| b.setWidth 16) :=
  congrArg some (commandWord_setWidth 0x9 b (by decide))

theorem encode_setMemidx (i : BitVec 8) : encode (.setMemidx i) = some (0xA000 ||| i.setWidth 16) :=
  congrArg some (commandWord_setWidth 0xA i (by decide))

theorem encode_play (c : BitVec 7) : encode (.play c) = some (0xB000 ||| c.setWidth 16) :=
  congrArg some (commandWord_setWidth 0xB c (by decide))

theorem encode_ack (mask : BitVec 12) : encode (.ack mask) = some (0xD000 ||| mask.setWidth 16) :=
  congrArg some (commandWord_eq_operandWord 0xD mask)

theorem encode_reservedE (x : BitVec 12) : encode (.reservedE x) = some (0xE000 ||| x.setWidth 16) :=
  congrArg some (commandWord_eq_operandWord 0xE x)

theorem encode_reservedF (x : BitVec 12) : encode (.reservedF x) = some (0xF000 ||| x.setWidth 16) :=
  congrArg some (commandWord_eq_operandWord 0xF x)

/-- Settles O1, command by command: the word of a command with an operand is its row's pattern with the operand in the
low bits, which is the word that `decode_…` reads. -/
theorem decodeOfEncodedCommand : Obligations.DecodeOfEncodedCommand := by
  intro i hcommand
  cases i with
  | nop => exact ⟨0x0000, rfl, rfl⟩
  | initDone => exact ⟨0x1000, rfl, rfl⟩
  | select m => exact ⟨_, encode_select m, decode_select m⟩
  | confirm => exact ⟨0x3000, rfl, rfl⟩
  | cancel => exact ⟨0x4000, rfl, rfl⟩
  | memDone => exact ⟨0x5000, rfl, rfl⟩
  | fault code => exact ⟨_, encode_fault code, decode_fault code⟩
  | setSpeed v => exact ⟨_, encode_setSpeed v, decode_setSpeed v⟩
  | setKeymode k => exact ⟨_, encode_setKeymode k, decode_setKeymode k⟩
  | setBeacon b => exact ⟨_, encode_setBeacon b, decode_setBeacon b⟩
  | setMemidx i => exact ⟨_, encode_setMemidx i, decode_setMemidx i⟩
  | play c => exact ⟨_, encode_play c, decode_play c⟩
  | drainEnc => exact ⟨0xC000, rfl, rfl⟩
  | ack mask => exact ⟨_, encode_ack mask, decode_ack mask⟩
  | reservedE x => exact ⟨_, encode_reservedE x, decode_reservedE x⟩
  | reservedF x => exact ⟨_, encode_reservedF x, decode_reservedF x⟩
  | _ => cases hcommand

/-! ## From a word to its command -/

/-- A word that passes a row's test is the row's pattern with the word's low bits, the ones the mask leaves free. -/
theorem eq_operandWord_of_row {w mask p : BitVec 16} (n : Nat) (hfree : ~~~mask = (BitVec.allOnes n).setWidth 16)
    (h : w &&& mask = p) : p ||| (w.extractLsb' 0 n).setWidth 16 = w := by
  subst h
  ext i hi
  have hfreei := congrArg (·.getLsbD i) hfree
  by_cases hin : i < n <;> grind

/-- The words that a row without operand bits admits: one. -/
theorem eq_of_full_row {w p : BitVec 16} (h : w &&& 0xFFFF = p) : w = p := by
  rwa [show (0xFFFF : BitVec 16) = BitVec.allOnes 16 from rfl, BitVec.and_allOnes] at h

/-- One row of the decoder: its test holds and the word is its command, or the rows after it decide. -/
theorem decode_row_cases {test : Prop} [Decidable test] {found i : Instr} {rest : Except DecodeError Instr}
    (h : (if test then .ok found else rest) = .ok i) : (test ∧ found = i) ∨ rest = .ok i := by
  by_cases htest : test
  · rw [if_pos htest] at h
    exact .inl ⟨htest, Except.ok.inj h⟩
  · rw [if_neg htest] at h
    exact .inr h

/-- Along the decoder's rows: the row whose test the word passes gives the word back, a row's operand being the bits
that its mask leaves free. -/
theorem encode_of_decode {w : BitVec 16} {i : Instr} (h : decode w = .ok i) : encode i = some w := by
  obtain ⟨hrow, rfl⟩ | h := decode_row_cases h
  · exact congrArg some (eq_of_full_row hrow).symm
  obtain ⟨hrow, rfl⟩ | h := decode_row_cases h
  · exact congrArg some (eq_of_full_row hrow).symm
  obtain ⟨hrow, rfl⟩ | h := decode_row_cases h
  · exact (encode_select _).trans (congrArg some (eq_operandWord_of_row 5 rfl hrow))
  obtain ⟨hrow, rfl⟩ | h := decode_row_cases h
  · exact congrArg some (eq_of_full_row hrow).symm
  obtain ⟨hrow, rfl⟩ | h := decode_row_cases h
  · exact congrArg some (eq_of_full_row hrow).symm
  obtain ⟨hrow, rfl⟩ | h := decode_row_cases h
  · exact congrArg some (eq_of_full_row hrow).symm
  obtain ⟨hrow, rfl⟩ | h := decode_row_cases h
  · exact (encode_fault _).trans (congrArg some (eq_operandWord_of_row 8 rfl hrow))
  obtain ⟨hrow, rfl⟩ | h := decode_row_cases h
  · exact (encode_setSpeed _).trans (congrArg some (eq_operandWord_of_row 5 rfl hrow))
  obtain ⟨hrow, rfl⟩ | h := decode_row_cases h
  · exact (encode_setKeymode _).trans (congrArg some (eq_operandWord_of_row 1 rfl hrow))
  obtain ⟨hrow, rfl⟩ | h := decode_row_cases h
  · exact (encode_setBeacon _).trans (congrArg some (eq_operandWord_of_row 1 rfl hrow))
  obtain ⟨hrow, rfl⟩ | h := decode_row_cases h
  · exact (encode_setMemidx _).trans (congrArg some (eq_operandWord_of_row 8 rfl hrow))
  obtain ⟨hrow, rfl⟩ | h := decode_row_cases h
  · exact (encode_play _).trans (congrArg some (eq_operandWord_of_row 7 rfl hrow))
  obtain ⟨hrow, rfl⟩ | h := decode_row_cases h
  · exact congrArg some (eq_of_full_row hrow).symm
  obtain ⟨hrow, rfl⟩ | h := decode_row_cases h
  · exact (encode_ack _).trans (congrArg some (eq_operandWord_of_row 12 rfl hrow))
  obtain ⟨hrow, rfl⟩ | h := decode_row_cases h
  · exact (encode_reservedE _).trans (congrArg some (eq_operandWord_of_row 12 rfl hrow))
  obtain ⟨hrow, rfl⟩ | h := decode_row_cases h
  · exact (encode_reservedF _).trans (congrArg some (eq_operandWord_of_row 12 rfl hrow))
  cases h

/-- Settles O2, by `encode_of_decode`. -/
theorem encodeOfDecodedWord : Obligations.EncodeOfDecodedWord :=
  fun _ _ h => encode_of_decode h

/-! ## The rows of the opcode map -/

theorem exists_decode_row_iff {test : Prop} [Decidable test] {found : Instr} {rest : Except DecodeError Instr} :
    (∃ i, (if test then .ok found else rest) = .ok i) ↔ test ∨ ∃ i, rest = .ok i := by
  by_cases htest : test <;> simp [htest]

/-- The decoder tests the rows of the map in their order, and each row it finds is a command. -/
theorem decode_ok_iff_row (w : BitVec 16) :
    (∃ i, decode w = .ok i) ↔ ∃ row ∈ opcodeMap, w &&& row.mask = row.pattern := by
  simp only [decode, exists_decode_row_iff, opcodeMap, List.exists_mem_cons_iff, List.not_mem_nil, false_and,
    exists_false, reduceCtorEq]

theorem decode_error_of_no_row {w : BitVec 16} (h : ∀ row ∈ opcodeMap, w &&& row.mask ≠ row.pattern) :
    ∃ e, decode w = .error e := by
  cases hdec : decode w with
  | error e => exact ⟨e, rfl⟩
  | ok i =>
    obtain ⟨row, hrow, hw⟩ := (decode_ok_iff_row w).mp ⟨i, hdec⟩
    exact absurd hw (h row hrow)

/-- Every mask keeps the opcode field. -/
theorem opField_mask_of_mem {row : OpcodeRow} (h : row ∈ opcodeMap) : opField row.mask = 0xF := by
  revert row
  decide

/-- A word that selects a row has the row's opcode. -/
theorem opField_of_row {row : OpcodeRow} (hrow : row ∈ opcodeMap) {w : BitVec 16}
    (h : w &&& row.mask = row.pattern) : opField w = opField row.pattern := by
  have hmask : row.mask.extractLsb' 12 4 = BitVec.allOnes 4 := opField_mask_of_mem hrow
  rw [← h, opField, opField, BitVec.extractLsb'_and, hmask, BitVec.and_allOnes]

theorem opcodeMap_opcodes_differ : opcodeMap.Pairwise fun a b => opField a.pattern ≠ opField b.pattern := by
  decide

/-- Settles O3: two rows that one word selects would have one opcode (`opField_of_row`), and no two have
(`opcodeMap_opcodes_differ`); the second half is `decode_ok_iff_row`. -/
theorem opcodeMapDisjointAndComplete : Obligations.OpcodeMapDisjointAndComplete := by
  refine ⟨opcodeMap_opcodes_differ.imp_of_mem fun {a b} ha hb hne w ⟨hwa, hwb⟩ => ?_, decode_ok_iff_row⟩
  exact hne ((opField_of_row ha hwa).symm.trans (opField_of_row hb hwb))

/-- Settles O5: such a word is a decode error (`decode_error_of_no_row`), which the command step rejects. -/
theorem malformedWordsRejected : Obligations.MalformedWordsRejected := by
  intro w s h
  obtain ⟨e, hdec⟩ := decode_error_of_no_row h
  exact Machine.commandStep_of_error hdec s

/-- Settles O6: a row with an operand is read by its `decode_…`, a row without one by evaluation. -/
theorem sampleWordsDecode : Obligations.SampleWordsDecode :=
  ⟨rfl, rfl, decode_select 3, rfl, rfl, rfl, decode_fault 7, decode_setSpeed 25, decode_setKeymode 1,
    decode_setBeacon 1, decode_setMemidx 1, decode_play 75, rfl, decode_ack 0x200, decode_reservedF 0x123⟩

end Sys2Proof

/-!
SUPPORT and the proofs of O24, O25, O28 to O39. What each tick sub-operation makes of the state, in the terms of the
claims, and the codec's patterns.
-/

namespace Sys2Proof.Machine

open Sys2Proof.Safety

/-! ## The scheduler and the sampler -/

/-- Settles O24: the increment is `exec_tCount`, and at the end of the range the count is a whole multiple of it. -/
theorem tCountIncrementsAndWraps : Obligations.TCountIncrementsAndWraps := by
  refine fun s => ⟨rfl, fun hend => ?_⟩
  have hwrap : (s.tcount.toNat + 1) % 2 ^ s.cfg.tcountW = 0 := by
    rw [hend, Nat.sub_add_cancel Nat.one_le_two_pow, Nat.mod_self]
  rw [exec_tCount, tickCount, hwrap]
  rfl

section
variable {n cnt : Nat} {raw db : Bool}

theorem debounceLine_same (h : raw = db) : debounceLine n raw db cnt = (db, 0) := if_pos h

theorem debounceLine_flips (h : raw ≠ db) (hn : cnt + 1 = n) : debounceLine n raw db cnt = (raw, 0) := by
  rw [debounceLine, if_neg h, if_pos hn]

theorem debounceLine_counts (h : raw ≠ db) (hn : cnt + 1 ≠ n) : debounceLine n raw db cnt = (db, cnt + 1) := by
  rw [debounceLine, if_neg h, if_neg hn]

end

/-- Settles O25: each line of the new `db` and `cnt` is a `debounceLine`, whose three branches are those of R121. -/
theorem debounceFlipsAfterNSamples : Obligations.DebounceFlipsAfterNSamples := by
  refine fun raw s => ⟨_, rfl, rfl, fun i => ?_⟩
  simp only [Lines.get_tabulate]
  refine ⟨fun h => ?_, fun h hn => ?_, fun h hn => ?_⟩
  · simp only [debounceLine_same h, and_self]
  · simp only [debounceLine_flips h hn, and_self]
  · simp only [debounceLine_counts h hn, and_self]

theorem ritArm_eq (s : State) : ritArm s = { s with
    ritT0 := if rose .ritBtn s then s.tcount else s.ritT0
    ritArmed := s.db.ritBtn && (rose .ritBtn s || s.ritArmed) } := by
  unfold ritArm
  cases hrose : rose .ritBtn s <;> cases hdown : s.db.ritBtn <;> simp [hdown]

/-- `S.RITLONG` in one update (R124). -/
theorem exec_sRitlong (s : State) :
    exec .sRitlong s =
      .next (if s.cfg.eraseEn && s.db.ritBtn && (ritArm s).ritArmed &&
          due (ritArm s).ritT0 s.cfg.ritLongTicks s then
        { ritArm s with ritArmed := false, evflags := s.evflags ||| Flag.mask .ritLong }
      else ritArm s) := by
  simp only [exec, execSRitlong, due, ritArm_cfg, ritArm_db, ritArm_tcount, flag, ritArm_evflags]

/-- Settles O28: the rise, the arming and the long press are the conditions of `exec_sRitlong` and `ritArm_eq` read as
propositions. -/
theorem ritLongRaisedOncePerPress : Obligations.RitLongRaisedOncePerPress := by
  intro s rise t0 armed long
  have hrise : rose .ritBtn s = true ↔ rise := rose_iff .ritBtn s
  have harmed : (s.db.ritBtn && (rose .ritBtn s || s.ritArmed)) = decide armed := by
    rw [Bool.eq_iff_iff]
    simp [hrise, armed]
  have harm : ritArm s = { s with ritT0 := t0, ritArmed := decide armed } := by
    rw [ritArm_eq, harmed]
    simp only [hrise, t0]
  have hlong : (s.cfg.eraseEn && s.db.ritBtn && (ritArm s).ritArmed &&
      due (ritArm s).ritT0 s.cfg.ritLongTicks s) = true ↔ long := by
    simp only [harm, Bool.and_eq_true, due, decide_eq_true_eq, long, armed]
    tauto
  rw [exec_sRitlong]
  by_cases h : long
  · rw [if_pos (hlong.mpr h), if_pos h, harm, decide_eq_false (not_and_not_right.mpr fun _ => h)]
    rfl
  · rw [if_neg (mt hlong.mp h), if_neg h, harm]
    simp only [h, not_false_eq_true, and_true]

/-! ## The straight key -/

/-- Settles O29, by the contact and the key line. -/
theorem straightKeyFollowsTheContact : Obligations.StraightKeyFollowsTheContact := by
  intro c s
  refine ⟨fun hc hup => ?_, fun hc hdown => ?_, fun hsame => ?_⟩
  · simp [exec, execKStraight, hc, hup, emit]
  · simp [exec, execKStraight, hc, hdown, emit]
  · cases hdown : s.key.keyDown <;> simp [exec, execKStraight, hsame, hdown]

/-! ## The iambic keyer -/

section
variable {pd ps : Bool} {s : State}

theorem startElement_eq_started (x : Element) : startElement x pd ps s = started x pd ps s := by
  cases x <;> simp [startElement, started, emit, eventOf, lastOf, durationOf]

/-- The model's choice of the element is the one of R156. -/
theorem chooseElement_eq_chosen :
    chooseElement s.cfg.squeezeFirst s.key.last (pd || s.key.dot) (ps || s.key.dash) = chosen pd ps s := by
  simp only [chosen, ← Bool.or_eq_true]
  cases pd || s.key.dot <;> cases ps || s.key.dash <;> cases s.key.last <;> rfl

theorem tryStart_eq_some {x : Element} (h : chosen pd ps s = some x) : tryStart pd ps s = some (started x pd ps s) := by
  rw [tryStart_eq, chooseElement_eq_chosen, h, Option.map_some, startElement_eq_started]

theorem tryStart_eq_none (h : chosen pd ps s = none) : tryStart pd ps s = none := by
  rw [tryStart_eq, chooseElement_eq_chosen, h, Option.map_none]

/-- The choice and the start do not look at the timer. -/
theorem chosen_countDown : chosen pd ps (countDown s) = chosen pd ps s := rfl

theorem started_countDown (x : Element) : started x pd ps (countDown s) = started x pd ps s := by
  cases x <;> rfl

theorem countDown_eq (h : 1 ≤ s.key.timer.toNat) :
    countDown s = { s with key := { s.key with timer := BitVec.ofNat 16 (s.key.timer.toNat - 1) } } := by
  have htimer : s.key.timer - 1 = BitVec.ofNat 16 (s.key.timer.toNat - 1) := by bv_omega
  rw [← htimer]
  rfl

theorem phaseGap_starts {t : State} (h : s.key.timer.toNat = 1) (hstart : tryStart pd ps (countDown s) = some t) :
    phaseGap pd ps s = t := by
  simp only [phaseGap, countDown_timer_eq_zero_iff.mpr h, hstart, if_true]

theorem phaseWait_starts {t : State} (hstart : tryStart pd ps s = some t) : phaseWait pd ps s = t := by
  simp only [phaseWait, hstart]

theorem exec_kIambic_idle (h : s.key.phase = .idle) : exec (.kIambic pd ps) s = .next (phaseIdle pd ps s) := by
  simp only [exec, execKIambic, h]

theorem exec_kIambic_element (h : s.key.phase = .element) :
    exec (.kIambic pd ps) s = .next (phaseElement pd ps s) := by
  simp only [exec, execKIambic, h]

theorem exec_kIambic_gap (h : s.key.phase = .gap) : exec (.kIambic pd ps) s = .next (phaseGap pd ps s) := by
  simp only [exec, execKIambic, h]

theorem exec_kIambic_wait (h : s.key.phase = .wait) : exec (.kIambic pd ps) s = .next (phaseWait pd ps s) := by
  simp only [exec, execKIambic, h]

end

/-- Settles O30: at rest the step is what `TryStart` gives. -/
theorem iambicIdleStep : Obligations.IambicIdleStep := by
  intro pd ps s hphase
  rw [exec_kIambic_idle hphase]
  refine ⟨fun x hx => ?_, fun hnone => ?_⟩
  · rw [phaseIdle_starts (tryStart_eq_some hx)]
  · rw [phaseIdle_rests (tryStart_eq_none hnone)]

/-- Settles O31, by the countdown: `phaseElement_runs` and `phaseElement_ends`. -/
theorem iambicElementStep : Obligations.IambicElementStep := by
  intro pd ps s hphase dash dot
  rw [exec_kIambic_element hphase]
  refine ⟨fun hlong => ?_, fun hlast => ?_⟩
  · have hlow : 1 ≤ (latchOpposite pd ps s).key.timer.toNat := by rw [latchOpposite_key]; exact one_le_two.trans hlong
    rw [phaseElement_runs (by omega), countDown_eq hlow]
    rfl
  · rw [phaseElement_ends hlast]
    rfl

/-- Settles O32, by the countdown and, at the decision instant, the choice; neither the choice nor the start looks at
the timer. -/
theorem iambicGapStep : Obligations.IambicGapStep := by
  intro pd ps s hphase
  rw [exec_kIambic_gap hphase]
  refine ⟨fun hlong => ?_, fun x hlast hx => ?_, fun hlast hnone => ?_⟩
  · rw [phaseGap_runs (by omega), countDown_eq (by omega)]
  · rw [phaseGap_starts hlast (tryStart_eq_some (chosen_countDown.trans hx)), started_countDown]
  · rw [phaseGap_expires hlast (tryStart_eq_none (chosen_countDown.trans hnone))]

/-- Settles O33: a wanted element is started first, and only without one the countdown runs. -/
theorem iambicWaitStep : Obligations.IambicWaitStep := by
  intro pd ps s hphase
  rw [exec_kIambic_wait hphase]
  refine ⟨fun x hx => ?_, fun hnone hlong => ?_, fun hnone hlast => ?_⟩
  · rw [phaseWait_starts (tryStart_eq_some hx)]
  · rw [phaseWait_runs (by omega) (tryStart_eq_none hnone), countDown_eq (by omega)]
  · rw [phaseWait_expires hlast (tryStart_eq_none hnone), countDown_eq hlast.ge, hlast]
    rfl

/-! ## The playback feeder and the sequencer -/

section
variable {s : State}

theorem Event.isElement_iff (e : Event) : e.isElement = true ↔ e = .dot ∨ e = .dash := by
  cases e <;> decide

theorem Event.isActivity_iff (e : Event) : e.isActivity = true ↔ e ∈ [Event.start, .dot, .dash] := by
  cases e <;> decide

/-- An element start consumes an element (R237). -/
theorem exec_pFeed_element (hactive : s.pb.active = true) (hev : s.ev = .dot ∨ s.ev = .dash) :
    exec .pFeed s = .next { s with pb := { s.pb with rem := s.pb.rem - 1 } } := by
  have helement : s.ev.isElement = true := (Event.isElement_iff _).mpr hev
  have heoc : s.ev ≠ .eoc := by
    rintro heoc
    simp [heoc] at hev
  simp [exec, execPFeed, hactive, helement, heoc]

/-- The end of the character ends the playback (R237). -/
theorem exec_pFeed_eoc (hactive : s.pb.active = true) (hev : s.ev = .eoc) :
    exec .pFeed s =
      .next { s with pb := { s.pb with active := false }, evflags := s.evflags ||| Flag.mask .pbDone } := by
  simp [exec, execPFeed, hactive, hev, Event.isElement, flag]

theorem exec_pFeed_other (h : s.pb.active = false ∨ (s.ev ≠ .dot ∧ s.ev ≠ .dash ∧ s.ev ≠ .eoc)) :
    exec .pFeed s = .next s := by
  obtain hidle | ⟨hdot, hdash, heoc⟩ := h
  · simp [exec, execPFeed, hidle]
  · have helement : ¬ s.ev.isElement = true := by simp [Event.isElement_iff, hdot, hdash]
    simp [exec, execPFeed, helement, heoc]

end

/-- Settles O34, by the event. -/
theorem feedConsumesElements : Obligations.FeedConsumesElements := by
  refine fun s => ⟨fun hactive hev hrem => ?_, fun hactive hev => exec_pFeed_eoc hactive hev,
    fun hother => exec_pFeed_other hother⟩
  have hcount : s.pb.rem - 1 = BitVec.ofNat 3 (s.pb.rem.toNat - 1) := by bv_omega
  rw [exec_pFeed_element hactive hev, hcount]

/-- Settles O35, by the two moves of `autoTarget` and none: the move to `KEYING` keeps the key engine, the move to
`DEFAULT` is `enter_eq_entered`. -/
theorem autoFollowsKeyEvents : Obligations.AutoFollowsKeyEvents := by
  refine fun s => ⟨fun hmode hev => ?_, fun hmode hev => ?_, fun hstart hend => ?_⟩
  · have htarget : autoTarget s = some .keying := if_pos ⟨hmode, (Event.isActivity_iff _).mpr hev⟩
    simp [exec, execQAuto, htarget, enter, hmode, clearPlayback, flagIf]
  · have htarget : autoTarget s = some .default := by
      rw [autoTarget, if_neg (by simp [hmode]), if_pos ⟨hmode, hev⟩]
    simp only [exec, execQAuto, htarget, enter_eq_entered (m := .default) (by decide)]
  · have htarget : autoTarget s = none := by
      rw [autoTarget, if_neg (by rwa [Event.isActivity_iff]), if_neg hend]
    simp only [exec, execQAuto, htarget]

/-- `Q.BEACON` in the terms of R197. -/
theorem beaconFires_iff (s : State) : beaconFires s = true ↔
    s.locals.transitioned = false ∧ s.mode = .default ∧ s.ev = .none ∧ s.beacon = true ∧
      ((s.cfg.beaconInterval * s.key.dotTime.toNat : Nat) : Int) ≤ sdiff s.cfg.tcountW s.tcount s.beaconT0 := by
  simp [beaconFires, due, and_assoc]

theorem exec_qBeacon (s : State) : exec .qBeacon s = .next (if beaconFires s then entered .memSendTx s else s) := by
  rw [← enter_eq_entered (by decide)]
  rfl

/-- Settles O36, by the two branches of `exec_qBeacon`. -/
theorem beaconFiresAfterTheInterval : Obligations.BeaconFiresAfterTheInterval := by
  intro s fires
  rw [exec_qBeacon]
  refine ⟨fun h => ?_, fun h => ?_⟩
  · rw [if_pos ((beaconFires_iff s).mpr h)]
  · rw [if_neg (mt (beaconFires_iff s).mp h)]

/-- Settles O37: `T.BLINK` records what the output shows (`exec_tBlink`), three bits side by side. -/
theorem blinkShowsCounterBits : Obligations.BlinkShowsCounterBits := by
  intro s
  refine ⟨rfl, ?_, ?_, ?_⟩ <;> rw [blinkOut, blinkOf] <;> simp only [BitVec.getLsbD_append] <;> simp

/-! ## The codec -/

theorem digitPattern_of_digit {p : Config.Params} {c : BitVec 7} (habbrev : p.obscureAbbrev = true)
    (hlow : 48 ≤ c.toNat) (hhigh : c.toNat ≤ 57) : digitPattern p c = p.digitAbbrev.getD (c.toNat - 48) 0 :=
  if_pos ⟨habbrev, hlow, hhigh⟩

/-- Settles O38: `digitPattern` is the abbreviation or 0, and a pattern of 0 falls through to the table and to the
unrecognised pattern. -/
theorem patternSelection : Obligations.PatternSelection := by
  refine fun p c => ⟨fun habbrev hlow hhigh hset => ?_, fun hnone => ?_⟩
  · simp only [patternOf, digitPattern_of_digit habbrev hlow hhigh, hset, ne_eq, not_false_eq_true, if_true, if_false]
  · have hzero : digitPattern p c = 0 := by
      by_cases hdigit : p.obscureAbbrev = true ∧ 48 ≤ c.toNat ∧ c.toNat ≤ 57
      · obtain ⟨habbrev, hlow, hhigh⟩ := hdigit
        rw [digitPattern_of_digit habbrev hlow hhigh]
        obtain hoff | hbelow | habove | hzero := hnone
        · simp [hoff] at habbrev
        · omega
        · omega
        · exact hzero
      · exact if_neg hdigit
    simp only [patternOf, hzero, ne_eq, not_true_eq_false, if_false]

/-- Settles O39: the letters, the digits and the question mark are each a row of the table, and every other code has
none; finite, by evaluation. -/
theorem tableIsInternationalMorse : Obligations.TableIsInternationalMorse := by
  refine ⟨by decide, by decide, by decide, by decide⟩

end Sys2Proof.Machine

/-!
SUPPORT and the proofs of O11 to O14, O18, O19 and O21. The meaning of the host commands in the terms of the claims
(46_host_commands.md).
-/

namespace Sys2Proof.Machine

open Sys2Proof.Safety

/-! ## Storage -/

/-- A byte that is not the erased one is read back whatever the form of the memory. -/
theorem Memory.read_write_same_of_ne {b : Byte} (hb : b ≠ nvErased) (m : Memory) (x : Nat) :
    (m.write x b).read x = b := by
  induction m with
  | nil => simp [Memory.write, hb, Memory.read_cons]
  | cons c m ih =>
    obtain ⟨a, v⟩ := c
    by_cases hlt : x < a
    · simp [Memory.write, hlt, hb, Memory.read_cons]
    · by_cases hat : x = a
      · simp [Memory.write, hat, hb, Memory.read_cons]
      · simp [Memory.write, hlt, hat, Memory.read_cons, ih]

/-- A speed has five bits, so its byte is never the erased one. -/
theorem speedByte_ne_erased (v : BitVec 5) : v.setWidth 8 ≠ nvErased := by
  rw [nvErased]
  bv_omega

/-- The stored speed loaded (R269), with the access. -/
def loaded (s : State) : State :=
  withSpeed (storedSpeed s.cfg (s.nv.read s.cfg.nvSpeedAddr))
    { s with bus := s.bus ++ [.read s.cfg.nvSpeedAddr (s.nv.read s.cfg.nvSpeedAddr)] }

/-- The speed written to storage (R257), with the access. -/
def saved (s : State) : State :=
  { s with
    nv := s.nv.write s.cfg.nvSpeedAddr (s.key.speed.setWidth 8)
    bus := s.bus ++ [.write s.cfg.nvSpeedAddr (s.key.speed.setWidth 8)] }

/-- What is read back is what was written. -/
theorem saved_nv_read (s : State) : (saved s).nv.read s.cfg.nvSpeedAddr = s.key.speed.setWidth 8 :=
  Memory.read_write_same_of_ne (speedByte_ne_erased _) _ _

theorem loaded_saved (s : State) :
    loaded (saved s) = withSpeed (storedSpeed s.cfg (s.key.speed.setWidth 8)) { s with
      nv := s.nv.write s.cfg.nvSpeedAddr (s.key.speed.setWidth 8)
      bus := s.bus ++ [.write s.cfg.nvSpeedAddr (s.key.speed.setWidth 8),
        .read s.cfg.nvSpeedAddr (s.key.speed.setWidth 8)] } := by
  have hread : (saved s).nv.read (saved s).cfg.nvSpeedAddr = s.key.speed.setWidth 8 := saved_nv_read s
  rw [loaded, hread]
  simp only [saved, List.append_assoc, List.cons_append, List.nil_append]

section
variable {s : State}

theorem loadSpeed_eq_loaded (h : s.cfg.nvSpeedAddr < s.cfg.nvSize) : loadSpeed s = .next (loaded s) := by
  rw [loadSpeed_of_lt h, writeSpeed_eq_withSpeed, ← BitVec.setWidth_eq_extractLsb' (by decide)]
  rfl

theorem loadSpeed_fault (h : s.cfg.nvSize ≤ s.cfg.nvSpeedAddr) :
    loadSpeed s = .fault (.nvOutOfRange s.cfg.nvSpeedAddr) :=
  nvRead_of_ge h _

theorem confirmSave_of_adjustCs (hmode : s.mode = .adjustCs) (h : s.cfg.nvSpeedAddr < s.cfg.nvSize) :
    confirmSave s = .next (loaded (saved s)) := by
  rw [confirmSave, if_pos hmode, nvWrite_of_lt h, andThen_next]
  exact loadSpeed_eq_loaded (s := saved s) h

theorem confirmSave_fault (hmode : s.mode = .adjustCs) (h : s.cfg.nvSize ≤ s.cfg.nvSpeedAddr) :
    confirmSave s = .fault (.nvOutOfRange s.cfg.nvSpeedAddr) := by
  rw [confirmSave, if_pos hmode, nvWrite_of_ge h, andThen_fault]

theorem confirmSave_of_ne (hmode : s.mode ≠ .adjustCs) : confirmSave s = .next s := if_neg hmode

end

/-! ## Where `SELECT` and `CONFIRM` lead -/

theorem selectTarget_eq_none_iff (m : BitVec 5) : selectTarget m = none ↔ m.toNat ∉ [3, 4, 5, 6, 7, 9, 12] := by
  decide +revert

/-- The mode selected is the one whose tag the operand is. -/
theorem selectTarget_tag {m : BitVec 5} {target : Mode} (h : selectTarget m = some target) : target.tag = m := by
  revert h
  revert target
  show ∀ target ∈ selectTarget m, target.tag = m
  decide +revert

theorem selectTarget_of_mem {m : BitVec 5} {target : Mode}
    (h : (m.toNat, target) ∈ [(3, Mode.adjustCs), (4, .tune), (5, .changeBand), (6, .dfe), (7, .memSendWait),
      (9, .memEnterWait), (12, .calibrationCorrection)]) : selectTarget m = some target := by
  simp only [List.mem_cons, Prod.mk.injEq, List.not_mem_nil, or_false] at h
  obtain ⟨hm, rfl⟩ | ⟨hm, rfl⟩ | ⟨hm, rfl⟩ | ⟨hm, rfl⟩ | ⟨hm, rfl⟩ | ⟨hm, rfl⟩ | ⟨hm, rfl⟩ := h <;>
    simp only [selectTarget, hm]

/-- No command selects the mode that only a key event enters. -/
theorem selectTarget_ne_keying {m : BitVec 5} {target : Mode} (h : selectTarget m = some target) :
    target ≠ .keying := by
  rintro rfl
  have htag := selectTarget_tag h
  subst htag
  cases h

/-- The moves of `CONFIRM`, row by row (R257). -/
theorem confirmTarget_eq_some_iff (m target : Mode) : confirmTarget m = some target ↔
    (m, target) ∈ [(Mode.adjustCs, Mode.default), (.tune, .default), (.changeBand, .default),
      (.dfe, .default), (.memSendWait, .memSendTx), (.memEnterWait, .memEnter), (.memEnter, .memEnterReview),
      (.memEnterReview, .default), (.calibrationCorrection, .calibrationPeakIf),
      (.calibrationPeakIf, .calibrationChangeBand), (.calibrationChangeBand, .calibrationPeakRx),
      (.calibrationPeakRx, .default)] := by
  cases m <;> simp [confirmTarget, eq_comm]

theorem confirmTarget_eq_none_iff (m : Mode) :
    confirmTarget m = none ↔ m ∈ [Mode.startup, .default, .keying, .memSendTx, .error] := by
  cases m <;> decide

theorem confirmTarget_ne_keying {m target : Mode} (h : confirmTarget m = some target) : target ≠ .keying := by
  rintro rfl
  cases m <;> cases h

/-! ## The meaning of each command -/

section
variable {s : State}

theorem exec_initDone_of_startup (hmode : s.mode = .startup) (h : s.cfg.nvSpeedAddr < s.cfg.nvSize) :
    exec .initDone s = .next (answered 0 (entered .default (loaded s))) := by
  simp only [exec, execInitDone, hmode, decide_true, perform_true, loadSpeed_eq_loaded h, andThen_next,
    accept_answered, enter_eq_entered (m := .default) (by decide)]

theorem exec_initDone_fault (hmode : s.mode = .startup) (h : s.cfg.nvSize ≤ s.cfg.nvSpeedAddr) :
    exec .initDone s = .fault (.nvOutOfRange s.cfg.nvSpeedAddr) := by
  simp only [exec, execInitDone, hmode, decide_true, perform_true, loadSpeed_fault h, andThen_fault]

theorem exec_initDone_of_ne (hmode : s.mode ≠ .startup) : exec .initDone s = .next (rejected s) := by
  simp only [exec, execInitDone, decide_eq_false hmode, perform_false, reject_rejected]

theorem exec_select_of_target {m : BitVec 5} {target : Mode} (htarget : selectTarget m = some target) :
    exec (.select m) s =
      if s.mode = .default then .next (answered 0 (entered target s)) else .next (rejected s) := by
  simp only [exec, execSelect, htarget, perform_eq_ite decide_eq_true_iff, accept_answered,
    enter_eq_entered (selectTarget_ne_keying htarget)]

theorem exec_select_of_none {m : BitVec 5} (h : selectTarget m = none) :
    exec (.select m) s = .next (rejected s) := by
  simp only [exec, execSelect, h, reject_rejected]

theorem exec_confirm_of_ne {target : Mode} (hmode : s.mode ≠ .adjustCs)
    (htarget : confirmTarget s.mode = some target) :
    exec .confirm s = .next (answered 0 (entered target s)) := by
  simp only [exec, execConfirm, htarget, confirmSave_of_ne hmode, andThen_next, accept_answered,
    enter_eq_entered (confirmTarget_ne_keying htarget)]

theorem exec_confirm_of_adjustCs (hmode : s.mode = .adjustCs) (h : s.cfg.nvSpeedAddr < s.cfg.nvSize) :
    exec .confirm s = .next (answered 0 (entered .default (loaded (saved s)))) := by
  have htarget : confirmTarget s.mode = some .default := by rw [hmode]; rfl
  simp only [exec, execConfirm, htarget, confirmSave_of_adjustCs hmode h, andThen_next, accept_answered,
    enter_eq_entered (m := .default) (by decide)]

theorem exec_confirm_fault (hmode : s.mode = .adjustCs) (h : s.cfg.nvSize ≤ s.cfg.nvSpeedAddr) :
    exec .confirm s = .fault (.nvOutOfRange s.cfg.nvSpeedAddr) := by
  have htarget : confirmTarget s.mode = some .default := by rw [hmode]; rfl
  simp only [exec, execConfirm, htarget, confirmSave_fault hmode h, andThen_fault]

theorem exec_confirm_of_none (h : confirmTarget s.mode = none) : exec .confirm s = .next (rejected s) := by
  simp only [exec, execConfirm, h, reject_rejected]

theorem Mode.cancellable_iff (m : Mode) : m.cancellable = true ↔ m ∉ [Mode.startup, .default, .keying, .error] := by
  cases m <;> decide

theorem exec_cancel_of_ne (hcancel : s.mode.cancellable = true) (hmode : s.mode ≠ .adjustCs) :
    exec .cancel s = .next (answered 0 (entered .default s)) := by
  simp only [exec, execCancel, hcancel, perform_true, cancelRestore, if_neg hmode, andThen_next, accept_answered,
    enter_eq_entered (m := .default) (by decide)]

theorem exec_cancel_of_adjustCs (hmode : s.mode = .adjustCs) (h : s.cfg.nvSpeedAddr < s.cfg.nvSize) :
    exec .cancel s = .next (answered 0 (entered .default (loaded s))) := by
  have hcancel : s.mode.cancellable = true := by rw [hmode]; rfl
  simp only [exec, execCancel, hcancel, perform_true, cancelRestore, if_pos hmode, loadSpeed_eq_loaded h,
    andThen_next, accept_answered, enter_eq_entered (m := .default) (by decide)]

theorem exec_cancel_fault (hmode : s.mode = .adjustCs) (h : s.cfg.nvSize ≤ s.cfg.nvSpeedAddr) :
    exec .cancel s = .fault (.nvOutOfRange s.cfg.nvSpeedAddr) := by
  have hcancel : s.mode.cancellable = true := by rw [hmode]; rfl
  simp only [exec, execCancel, hcancel, perform_true, cancelRestore, if_pos hmode, loadSpeed_fault h, andThen_fault]

theorem exec_cancel_of_not (hcancel : s.mode.cancellable = false) : exec .cancel s = .next (rejected s) := by
  simp only [exec, execCancel, hcancel, perform_false, reject_rejected]

end

theorem exec_setKeymode (k : BitVec 1) (s : State) :
    exec (.setKeymode k) s =
      if s.mode = .startup ∨ s.mode = .default then
        .next (answered 0 { s with key := { atRest s.key with mode := keyModeOf k } })
      else .next (rejected s) := by
  simp only [exec, execSetKeymode, perform_eq_ite decide_eq_true_iff, accept_answered]
  rfl

theorem exec_setBeacon (b : BitVec 1) (s : State) :
    exec (.setBeacon b) s =
      if s.mode ≠ .error then .next (answered 0 { s with beacon := beaconOf b, beaconT0 := s.tcount })
      else .next (rejected s) := by
  simp only [exec, execSetBeacon, perform_eq_ite decide_eq_true_iff, accept_answered]

theorem exec_play (c : BitVec 7) (s : State) :
    exec (.play c) s =
      if s.mode = .memSendTx ∧ s.pb.active = false then
        .next (answered 0 (loadPattern (patternOf s.cfg c) s))
      else .next (rejected s) := by
  have hlegal : (decide (s.mode = .memSendTx) && !s.pb.active) = true ↔
      s.mode = .memSendTx ∧ s.pb.active = false := by
    simp
  simp only [exec, execPlay, perform_eq_ite hlegal, accept_answered]

theorem loadPattern_of_le {p : Byte} (h : 2 ≤ p.toNat) (s : State) :
    loadPattern p s = { s with pb := { pat := p, rem := BitVec.ofNat 3 (patternLength p), active := true } } :=
  if_pos h

theorem loadPattern_of_lt {p : Byte} (h : p.toNat < 2) (s : State) :
    loadPattern p s = { s with evflags := s.evflags ||| Flag.mask .pbDone } :=
  if_neg (Nat.not_le.mpr h)

/-- The length of a pattern is the place of its highest set bit (30_encoding.md R84). -/
theorem patternLength_eq {p : Byte} {n : Nat} (hlow : 2 ^ n ≤ p.toNat) (hhigh : p.toNat < 2 ^ (n + 1)) :
    patternLength p = n := by
  have hne : p.toNat ≠ 0 := fun h => by simp [h] at hlow
  exact (Nat.log2_eq_iff hne).mpr ⟨hlow, hhigh⟩

/-! ## The claims about single commands -/

/-- Settles O11, by the mode and the place of the speed byte. -/
theorem initDoneLoadsSpeedAndEntersDefault : Obligations.InitDoneLoadsSpeedAndEntersDefault :=
  fun s => ⟨commandStep_of_decode rfl s, exec_initDone_of_startup, exec_initDone_fault, exec_initDone_of_ne⟩

/-- Settles O12, by the operand's target. -/
theorem selectEntersTheSelectedMode : Obligations.SelectEntersTheSelectedMode := by
  intro m s
  refine ⟨commandStep_of_decode (decode_select m) s, fun target htarget hmode => ?_, fun h => ?_⟩
  · rw [exec_select_of_target (selectTarget_of_mem htarget), if_pos hmode]
  · cases htarget : selectTarget m with
    | none => exact exec_select_of_none htarget
    | some target =>
      have hmem : m.toNat ∈ [3, 4, 5, 6, 7, 9, 12] := by
        by_contra hnot
        rw [(selectTarget_eq_none_iff m).mpr hnot] at htarget
        cases htarget
      rw [exec_select_of_target htarget, if_neg (h.resolve_right (not_not.mpr hmem))]

/-- Settles O13: the moves are `confirmTarget_eq_some_iff`; from `ADJUST_CS` the byte read back is the one written
(`loaded_saved`). -/
theorem confirmAdvances : Obligations.ConfirmAdvances := by
  intro s
  refine ⟨commandStep_of_decode rfl s, fun target htarget => ?_, fun hmode h => ?_, exec_confirm_fault,
    fun hmode => exec_confirm_of_none ((confirmTarget_eq_none_iff _).mpr hmode)⟩
  · have hmode : s.mode ≠ .adjustCs := by
      intro hmode
      simp [hmode] at htarget
    exact exec_confirm_of_ne hmode ((confirmTarget_eq_some_iff _ _).mpr (List.mem_cons_of_mem _ htarget))
  · rw [exec_confirm_of_adjustCs hmode h, loaded_saved]

/-- Settles O14, by the mode and the place of the speed byte. -/
theorem cancelReturnsToDefault : Obligations.CancelReturnsToDefault := by
  intro s
  refine ⟨commandStep_of_decode rfl s, fun hmode => ?_, exec_cancel_of_adjustCs, exec_cancel_fault, fun hmode => ?_⟩
  · refine exec_cancel_of_ne ((Mode.cancellable_iff _).mpr fun hfour => hmode ?_) fun hadjust => hmode ?_
    · simp only [List.mem_cons, List.not_mem_nil, or_false] at hfour ⊢
      tauto
    · simp [hadjust]
  · exact exec_cancel_of_not (Bool.eq_false_iff.mpr (mt (Mode.cancellable_iff _).mp (not_not.mpr hmode)))

/-- Settles O18, by the two branches of `exec_setKeymode`. -/
theorem setKeymodeSelectsTheKeyer : Obligations.SetKeymodeSelectsTheKeyer := by
  intro k s
  refine ⟨commandStep_of_decode (decode_setKeymode k) s, fun hmode => ?_, fun hstartup hdefault => ?_⟩
  · rw [exec_setKeymode, if_pos hmode]
    rfl
  · rw [exec_setKeymode, if_neg (not_or.mpr ⟨hstartup, hdefault⟩)]

/-- Settles O19, by the two branches of `exec_setBeacon`. -/
theorem setBeaconRetakesTheOrigin : Obligations.SetBeaconRetakesTheOrigin := by
  intro b s
  refine ⟨commandStep_of_decode (decode_setBeacon b) s, fun hmode => ?_, fun hmode => ?_⟩
  · rw [exec_setBeacon, if_pos hmode]
    rfl
  · rw [exec_setBeacon, if_neg (not_not.mpr hmode)]

/-- Settles O21, by the two branches of `exec_play` and of `loadPattern`. -/
theorem playLoadsThePattern : Obligations.PlayLoadsThePattern := by
  intro c s
  refine ⟨commandStep_of_decode (decode_play c) s, fun hmode hidle => ⟨fun n hn hlow hhigh => ?_, fun hshort => ?_⟩,
    fun h => ?_⟩
  · have htwo : 2 ≤ (patternOf s.cfg c).toNat := (Nat.le_self_pow (by omega) 2).trans hlow
    rw [exec_play, if_pos ⟨hmode, hidle⟩, loadPattern_of_le htwo, patternLength_eq hlow hhigh]
  · rw [exec_play, if_pos ⟨hmode, hidle⟩, loadPattern_of_lt hshort]
    rfl
  · rw [exec_play, if_neg]
    rwa [not_and_or, Bool.not_eq_false]

end Sys2Proof.Machine

/-!
SUPPORT and the proofs of O48 and O49. Everything a host command can do: it is rejected, or performed with the effect
of its rule, exactly as the legality matrix says (46_host_commands.md R251 to R253).
-/

namespace Sys2Proof.Machine

open Sys2Proof.Safety

/-! ## Everything a command can do -/

/-- What a performed command makes of the state, before its answer, with the conditions under which it is performed
(46_host_commands.md R254 to R267). -/
inductive Performed (s : State) : Instr → State → Prop
  | nop : Performed s .nop s
  | initDone (mode : s.mode = .startup) : Performed s .initDone (entered .default (loaded s))
  | select {m : BitVec 5} {target : Mode} (mode : s.mode = .default) (tag : selectTarget m = some target) :
      Performed s (.select m) (entered target s)
  | confirm {target : Mode} (mode : s.mode ≠ .adjustCs) (move : confirmTarget s.mode = some target) :
      Performed s .confirm (entered target s)
  | confirmSpeed (mode : s.mode = .adjustCs) : Performed s .confirm (entered .default (loaded (saved s)))
  | cancel (legal : s.mode.cancellable = true) (mode : s.mode ≠ .adjustCs) :
      Performed s .cancel (entered .default s)
  | cancelSpeed (mode : s.mode = .adjustCs) : Performed s .cancel (entered .default (loaded s))
  | memDone (mode : s.mode = .memSendTx) (idle : s.pb.active = false) : Performed s .memDone (entered .default s)
  | fault {code : BitVec 8} (mode : s.mode ≠ .error) :
      Performed s (.fault code) (entered .error { s with errcode := code })
  | setSpeed {v : BitVec 5} (mode : s.mode = .adjustCs) (low : s.cfg.keyMinSpeed ≤ v.toNat)
      (high : v.toNat ≤ s.cfg.keyMaxSpeed) : Performed s (.setSpeed v) (withSpeed v s)
  | setKeymode {k : BitVec 1} (mode : s.mode = .startup ∨ s.mode = .default) :
      Performed s (.setKeymode k) { s with key := { atRest s.key with mode := keyModeOf k } }
  | setBeacon {b : BitVec 1} (mode : s.mode ≠ .error) :
      Performed s (.setBeacon b) { s with beacon := beaconOf b, beaconT0 := s.tcount }
  | setMemidx {i : BitVec 8} (sending : s.mode ≠ .memSendTx) (mode : s.mode ≠ .error)
      (slot : i.toNat < s.cfg.memSlots) : Performed s (.setMemidx i) { s with memTxIndex := i }
  | play {c : BitVec 7} (mode : s.mode = .memSendTx) (idle : s.pb.active = false) :
      Performed s (.play c) (loadPattern (patternOf s.cfg c) s)
  | drainEnc : Performed s .drainEnc { s with encoderValue := 0 }
  | ack {mask : BitVec 12} : Performed s (.ack mask) { s with evflags := s.evflags &&& ~~~mask }

/-- Everything a command can do: it is rejected where the matrix says no, and where it says yes performed, or stopped
because the speed byte lies outside storage (log 5). -/
inductive Behaves (i : Instr) (s : State) : Result → Prop
  | rejected (no : accepted i s = false) : Behaves i s (.next (rejected s))
  | performed {u : State} (rsp : BitVec 16) (yes : accepted i s = true) (effect : Performed s i u) :
      Behaves i s (.next (answered rsp u))
  | stopped (yes : accepted i s = true) (outside : s.cfg.nvSize ≤ s.cfg.nvSpeedAddr) :
      Behaves i s (.fault (.nvOutOfRange s.cfg.nvSpeedAddr))

/-- A command with one condition and one effect. -/
theorem behaves_ite {i : Instr} {s u : State} {P : Prop} [Decidable P] (rsp : BitVec 16)
    (haccepted : accepted i s = true ↔ P) (effect : P → Performed s i u) :
    Behaves i s (if P then .next (answered rsp u) else .next (rejected s)) := by
  by_cases hP : P
  · rw [if_pos hP]
    exact .performed rsp (haccepted.mpr hP) (effect hP)
  · rw [if_neg hP]
    exact .rejected (Bool.eq_false_iff.mpr (mt haccepted.mp hP))

/-! ## The cells of the legality matrix -/

section
variable {i : Instr} {s : State}

theorem accepted_iff : accepted i s = true ↔
    i.wellFormed s.cfg = true ∧ s.mode ∈ legalModes i ∧ (needsIdlePlayback i && s.pb.active) = false := by
  simp only [accepted, Bool.and_eq_true, List.contains_iff_mem, Bool.not_eq_true', and_assoc]

/-- A row without a condition on the playback. -/
theorem accepted_iff_of_row (hidle : needsIdlePlayback i = false) :
    accepted i s = true ↔ i.wellFormed s.cfg = true ∧ s.mode ∈ legalModes i := by
  simp [accepted_iff, hidle]

/-- The rows of `NOP`, `DRAIN_ENC` and `ACK`. -/
theorem mem_legalModes_nop (m : Mode) : m ∈ legalModes .nop := by
  cases m <;> decide

/-- The rows of `FAULT` and `SET_BEACON`. -/
theorem mem_legalModes_fault (m : Mode) : m ∈ legalModes (.fault 0) ↔ m ≠ .error := by
  cases m <;> decide

theorem mem_legalModes_confirm (m : Mode) : m ∈ legalModes .confirm ↔ confirmTarget m ≠ none := by
  cases m <;> decide

theorem mem_legalModes_cancel (m : Mode) : m ∈ legalModes .cancel ↔ m.cancellable = true := by
  cases m <;> decide

theorem mem_legalModes_setMemidx (m : Mode) : m ∈ legalModes (.setMemidx 0) ↔ m ≠ .memSendTx ∧ m ≠ .error := by
  cases m <;> decide

theorem accepted_initDone : accepted .initDone s = true ↔ s.mode = .startup := by
  rw [accepted_iff_of_row rfl]
  simp [Instr.wellFormed, legalModes]

theorem accepted_select {m : BitVec 5} :
    accepted (.select m) s = true ↔ selectTarget m ≠ none ∧ s.mode = .default := by
  rw [Ne, selectTarget_eq_none_iff, not_not, accepted_iff_of_row rfl]
  simp [Instr.wellFormed, legalModes]

theorem accepted_confirm : accepted .confirm s = true ↔ confirmTarget s.mode ≠ none :=
  (accepted_iff_of_row rfl).trans (and_iff_right rfl |>.trans (mem_legalModes_confirm s.mode))

theorem accepted_cancel : accepted .cancel s = true ↔ s.mode.cancellable = true :=
  (accepted_iff_of_row rfl).trans (and_iff_right rfl |>.trans (mem_legalModes_cancel s.mode))

theorem accepted_memDone : accepted .memDone s = true ↔ s.mode = .memSendTx ∧ s.pb.active = false := by
  simp [accepted_iff, needsIdlePlayback, Instr.wellFormed, legalModes]

theorem accepted_play {c : BitVec 7} :
    accepted (.play c) s = true ↔ s.mode = .memSendTx ∧ s.pb.active = false := by
  simp [accepted_iff, needsIdlePlayback, Instr.wellFormed, legalModes]

theorem accepted_fault {code : BitVec 8} : accepted (.fault code) s = true ↔ s.mode ≠ .error :=
  (accepted_iff_of_row rfl).trans (and_iff_right rfl |>.trans (mem_legalModes_fault s.mode))

theorem accepted_setBeacon {b : BitVec 1} : accepted (.setBeacon b) s = true ↔ s.mode ≠ .error :=
  (accepted_iff_of_row rfl).trans (and_iff_right rfl |>.trans (mem_legalModes_fault s.mode))

theorem accepted_setSpeed {v : BitVec 5} : accepted (.setSpeed v) s = true ↔
    s.mode = .adjustCs ∧ s.cfg.keyMinSpeed ≤ v.toNat ∧ v.toNat ≤ s.cfg.keyMaxSpeed := by
  rw [accepted_iff_of_row rfl]
  simp [Instr.wellFormed, legalModes, and_comm]

theorem accepted_setKeymode {k : BitVec 1} :
    accepted (.setKeymode k) s = true ↔ s.mode = .startup ∨ s.mode = .default := by
  rw [accepted_iff_of_row rfl]
  simp [Instr.wellFormed, legalModes]

theorem accepted_setMemidx {x : BitVec 8} : accepted (.setMemidx x) s = true ↔
    s.mode ≠ .memSendTx ∧ s.mode ≠ .error ∧ x.toNat < s.cfg.memSlots := by
  have hmodes : s.mode ∈ legalModes (.setMemidx x) ↔ s.mode ≠ .memSendTx ∧ s.mode ≠ .error :=
    mem_legalModes_setMemidx s.mode
  rw [accepted_iff_of_row rfl, hmodes, Instr.wellFormed, decide_eq_true_iff, and_comm, and_assoc]

/-- `NOP`, `DRAIN_ENC` and `ACK` are legal always. -/
theorem accepted_of_legal_always (hidle : needsIdlePlayback i = false) (hwf : i.wellFormed s.cfg = true)
    (hmodes : legalModes i = legalModes .nop) : accepted i s = true :=
  (accepted_iff_of_row hidle).mpr ⟨hwf, hmodes ▸ mem_legalModes_nop s.mode⟩

end

/-! ## Each command -/

theorem exec_initDone_behaves (s : State) : Behaves .initDone s (exec .initDone s) := by
  by_cases hmode : s.mode = .startup
  · by_cases hin : s.cfg.nvSpeedAddr < s.cfg.nvSize
    · rw [exec_initDone_of_startup hmode hin]
      exact .performed 0 (accepted_initDone.mpr hmode) (.initDone hmode)
    · rw [exec_initDone_fault hmode (not_lt.mp hin)]
      exact .stopped (accepted_initDone.mpr hmode) (not_lt.mp hin)
  · rw [exec_initDone_of_ne hmode]
    exact .rejected (Bool.eq_false_iff.mpr (mt accepted_initDone.mp hmode))

theorem exec_select_behaves (m : BitVec 5) (s : State) : Behaves (.select m) s (exec (.select m) s) := by
  cases htarget : selectTarget m with
  | none =>
    rw [exec_select_of_none htarget]
    exact .rejected (Bool.eq_false_iff.mpr fun hyes => (accepted_select.mp hyes).1 htarget)
  | some target =>
    have hsome : selectTarget m ≠ none := by simp [htarget]
    rw [exec_select_of_target htarget]
    exact behaves_ite 0 (accepted_select.trans (and_iff_right hsome)) fun hmode => .select hmode htarget

theorem exec_confirm_behaves (s : State) : Behaves .confirm s (exec .confirm s) := by
  cases htarget : confirmTarget s.mode with
  | none =>
    rw [exec_confirm_of_none htarget]
    exact .rejected (Bool.eq_false_iff.mpr fun hyes => accepted_confirm.mp hyes htarget)
  | some target =>
    have hyes : accepted .confirm s = true := accepted_confirm.mpr (by simp [htarget])
    by_cases hmode : s.mode = .adjustCs
    · by_cases hin : s.cfg.nvSpeedAddr < s.cfg.nvSize
      · rw [exec_confirm_of_adjustCs hmode hin]
        exact .performed 0 hyes (.confirmSpeed hmode)
      · rw [exec_confirm_fault hmode (not_lt.mp hin)]
        exact .stopped hyes (not_lt.mp hin)
    · rw [exec_confirm_of_ne hmode htarget]
      exact .performed 0 hyes (.confirm hmode htarget)

theorem exec_cancel_behaves (s : State) : Behaves .cancel s (exec .cancel s) := by
  cases hcancel : s.mode.cancellable with
  | false =>
    rw [exec_cancel_of_not hcancel]
    exact .rejected (Bool.eq_false_iff.mpr (mt accepted_cancel.mp (Bool.eq_false_iff.mp hcancel)))
  | true =>
    by_cases hmode : s.mode = .adjustCs
    · by_cases hin : s.cfg.nvSpeedAddr < s.cfg.nvSize
      · rw [exec_cancel_of_adjustCs hmode hin]
        exact .performed 0 (accepted_cancel.mpr hcancel) (.cancelSpeed hmode)
      · rw [exec_cancel_fault hmode (not_lt.mp hin)]
        exact .stopped (accepted_cancel.mpr hcancel) (not_lt.mp hin)
    · rw [exec_cancel_of_ne hcancel hmode]
      exact .performed 0 (accepted_cancel.mpr hcancel) (.cancel hcancel hmode)

/-- Every command behaves as the matrix and its rule say. -/
theorem exec_behaves {i : Instr} (hcommand : i.isCommand = true) (s : State) : Behaves i s (exec i s) := by
  cases i with
  | nop => exact .performed 0 (accepted_of_legal_always rfl rfl rfl) .nop
  | initDone => exact exec_initDone_behaves s
  | select m => exact exec_select_behaves m s
  | confirm => exact exec_confirm_behaves s
  | cancel => exact exec_cancel_behaves s
  | memDone =>
    rw [exec_memDone]
    exact behaves_ite 0 accepted_memDone fun ⟨hmode, hidle⟩ => .memDone hmode hidle
  | fault code =>
    rw [exec_fault]
    exact behaves_ite 0 accepted_fault .fault
  | setSpeed v =>
    rw [exec_setSpeed]
    exact behaves_ite 0 accepted_setSpeed fun ⟨hmode, hlow, hhigh⟩ => .setSpeed hmode hlow hhigh
  | setKeymode k =>
    rw [exec_setKeymode]
    exact behaves_ite 0 accepted_setKeymode .setKeymode
  | setBeacon b =>
    rw [exec_setBeacon]
    exact behaves_ite 0 accepted_setBeacon .setBeacon
  | setMemidx x =>
    rw [exec_setMemidx]
    exact behaves_ite 0 accepted_setMemidx fun ⟨hsend, hmode, hslot⟩ => .setMemidx hsend hmode hslot
  | play c =>
    rw [exec_play]
    exact behaves_ite 0 accepted_play fun ⟨hmode, hidle⟩ => .play hmode hidle
  | drainEnc => exact .performed _ (accepted_of_legal_always rfl rfl rfl) .drainEnc
  | ack mask => exact .performed 0 (accepted_of_legal_always rfl rfl rfl) .ack
  | reservedE x => exact .rejected rfl
  | reservedF x => exact .rejected rfl
  | _ => cases hcommand

theorem behaves_of_exec {i : Instr} {s : State} {o : Result} (hcommand : i.isCommand = true) (h : exec i s = o) :
    Behaves i s o :=
  h ▸ exec_behaves hcommand s

/-- The commands are the operations with a word (30_encoding.md R80). -/
theorem isCommand_eq_encode_isSome (i : Instr) : i.isCommand = (encode i).isSome := by
  cases i <;> rfl

theorem isCommand_of_decode {w : BitVec 16} {i : Instr} (h : decode w = .ok i) : i.isCommand = true := by
  rw [isCommand_eq_encode_isSome, encode_of_decode h, Option.isSome_some]

/-! ## The claims -/

/-- Settles O48: a command step that answers `ok = 0` is no performed one (`Behaves`). -/
theorem rejectedCommandChangesOnlyItsFlag : Obligations.RejectedCommandChangesOnlyItsFlag := by
  intro w s t r hstep hanswer
  cases hdec : decode w with
  | error e =>
    rw [commandStep_of_error hdec] at hstep
    cases hstep
    rfl
  | ok i =>
    rw [commandStep_of_decode hdec] at hstep
    cases behaves_of_exec (isCommand_of_decode hdec) hstep with
    | rejected no => rfl
    | performed rsp yes effect => cases hanswer

/-- Settles O49: inside storage a command is rejected or performed as `accepted` says (`Behaves`), and `ok` tells
which. -/
theorem legalityMatrix : Obligations.LegalityMatrix := by
  intro i s hcommand hin
  obtain ⟨o, ho⟩ : ∃ o, exec i s = o := ⟨_, rfl⟩
  rw [ho]
  cases behaves_of_exec hcommand ho with
  | rejected no => exact ⟨_, rfl, congrArg some no.symm⟩
  | performed rsp yes effect => exact ⟨_, rfl, congrArg some yes.symm⟩
  | stopped yes outside => exact absurd hin (not_lt.mpr outside)

end Sys2Proof.Machine

/-!
SUPPORT. Everything a tick sub-operation can do, one case list that the whole-machine rules cite, and the footprint of
the iambic keyer: `K.IAMBIC` reads and writes the key engine and `ev` alone (43_iambic_key_decoder.md R154 to R160).
-/

namespace Sys2Proof.Machine

open Sys2Proof.Safety

/-! ## The footprint of `K.IAMBIC` -/

/-- The state `o` with the parameters, the key engine and the event of `s`. -/
def graft (s o : State) : State := { o with cfg := s.cfg, key := s.key, ev := s.ev }

/-- The fields of the key engine that no key step writes. -/
def KeyState.settings (k : KeyState) : KeyMode × BitVec 5 × BitVec 16 × BitVec 16 :=
  (k.mode, k.speed, k.dotTime, k.dashTime)

/-- The state that `K.IAMBIC` leaves. -/
def iambicNext (pd ps : Bool) (s : State) : State :=
  match s.key.phase with
  | .element => phaseElement pd ps s
  | .gap => phaseGap pd ps s
  | .wait => phaseWait pd ps s
  | .idle => phaseIdle pd ps s

theorem exec_kIambic (pd ps : Bool) (s : State) : exec (.kIambic pd ps) s = .next (iambicNext pd ps s) := rfl

section
variable {pd ps : Bool} {s o : State}

theorem tryStart_graft : tryStart pd ps (graft s o) = (tryStart pd ps s).map (graft · o) := by
  simp only [tryStart_eq, Option.map_map]
  rfl

theorem phaseIdle_graft : phaseIdle pd ps (graft s o) = graft (phaseIdle pd ps s) o := by
  simp only [phaseIdle, tryStart_graft]
  cases tryStart pd ps s <;> rfl

theorem phaseElement_graft : phaseElement pd ps (graft s o) = graft (phaseElement pd ps s) o := by
  by_cases hlast : s.key.timer.toNat = 1
  · rw [phaseElement_ends hlast, phaseElement_ends (s := graft s o) hlast]
    rfl
  · rw [phaseElement_runs hlast, phaseElement_runs (s := graft s o) hlast]
    rfl

theorem phaseGap_graft : phaseGap pd ps (graft s o) = graft (phaseGap pd ps s) o := by
  by_cases hlast : s.key.timer.toNat = 1
  · cases hstart : tryStart pd ps (countDown s) with
    | none =>
      rw [phaseGap_expires hlast hstart, phaseGap_expires (s := graft s o) hlast]
      · rfl
      · exact (tryStart_graft (s := countDown s)).trans (congrArg (Option.map (graft · o)) hstart)
    | some t =>
      rw [phaseGap_starts hlast hstart]
      exact phaseGap_starts hlast ((tryStart_graft (s := countDown s)).trans
        (congrArg (Option.map (graft · o)) hstart))
  · rw [phaseGap_runs hlast, phaseGap_runs (s := graft s o) hlast]
    rfl

theorem phaseWait_graft : phaseWait pd ps (graft s o) = graft (phaseWait pd ps s) o := by
  cases hstart : tryStart pd ps s with
  | none =>
    have hstart' : tryStart pd ps (graft s o) = none := by rw [tryStart_graft, hstart, Option.map_none]
    by_cases hlast : s.key.timer.toNat = 1
    · rw [phaseWait_expires hlast hstart, phaseWait_expires (s := graft s o) hlast hstart']
      rfl
    · rw [phaseWait_runs hlast hstart, phaseWait_runs (s := graft s o) hlast hstart']
      rfl
  | some t =>
    have hstart' : tryStart pd ps (graft s o) = some (graft t o) := by rw [tryStart_graft, hstart, Option.map_some]
    rw [phaseWait_starts hstart, phaseWait_starts hstart']

/-- `K.IAMBIC` does in another state what it does here, if the key engine, the event and the parameters are the same. -/
theorem iambicNext_graft (pd ps : Bool) (s o : State) :
    iambicNext pd ps (graft s o) = graft (iambicNext pd ps s) o := by
  have hphase : (graft s o).key.phase = s.key.phase := rfl
  unfold iambicNext
  rw [hphase]
  cases s.key.phase
  case idle => exact phaseIdle_graft
  case element => exact phaseElement_graft
  case gap => exact phaseGap_graft
  case wait => exact phaseWait_graft

end

/-- Everything one iambic key step can do (R157 to R160). -/
inductive IambicMove (pd ps : Bool) (s : State) : State → Prop
  | elementRuns (phase : s.key.phase = .element) (timer : s.key.timer.toNat ≠ 1) :
      IambicMove pd ps s (countDown (latchOpposite pd ps s))
  | elementEnds (phase : s.key.phase = .element) (timer : s.key.timer.toNat = 1) :
      IambicMove pd ps s (emit .eoe { s with key := { (latchOpposite pd ps s).key with
        keyDown := false, phase := .gap, timer := s.key.dotTime } })
  | gapRuns (phase : s.key.phase = .gap) (timer : s.key.timer.toNat ≠ 1) : IambicMove pd ps s (countDown s)
  | gapExpires (phase : s.key.phase = .gap) (timer : s.key.timer.toNat = 1) (none : chosen pd ps s = none) :
      IambicMove pd ps s { s with key := { s.key with phase := .wait, timer := s.key.dashTime } }
  | waitRuns (phase : s.key.phase = .wait) (timer : s.key.timer.toNat ≠ 1) (none : chosen pd ps s = none) :
      IambicMove pd ps s (countDown s)
  | waitExpires (phase : s.key.phase = .wait) (timer : s.key.timer.toNat = 1) (none : chosen pd ps s = none) :
      IambicMove pd ps s (emit .eoc { s with key := { (countDown s).key with
        timeout := true, phase := .idle, last := .none } })
  | rests (phase : s.key.phase = .idle) (none : chosen pd ps s = none) : IambicMove pd ps s s
  | starts {x : Element} (phase : s.key.phase ≠ .element) (wanted : chosen pd ps s = some x) :
      IambicMove pd ps s (startElement x pd ps s)

theorem iambicNext_move (pd ps : Bool) (s : State) : IambicMove pd ps s (iambicNext pd ps s) := by
  have hstart : tryStart pd ps s = (chosen pd ps s).map (startElement · pd ps s) := by
    rw [tryStart_eq, chooseElement_eq_chosen]
  have hstart' : tryStart pd ps (countDown s) = (chosen pd ps s).map (startElement · pd ps s) := by
    rw [tryStart_eq, chooseElement_eq_chosen]
    rfl
  unfold iambicNext
  cases hphase : s.key.phase with
  | element =>
    by_cases hlast : s.key.timer.toNat = 1
    · exact phaseElement_ends hlast ▸ .elementEnds hphase hlast
    · exact phaseElement_runs hlast ▸ .elementRuns hphase hlast
  | gap =>
    by_cases hlast : s.key.timer.toNat = 1
    · cases hchosen : chosen pd ps s with
      | none =>
        rw [hchosen] at hstart'
        exact phaseGap_expires hlast hstart' ▸ .gapExpires hphase hlast hchosen
      | some x =>
        rw [hchosen] at hstart'
        exact phaseGap_starts hlast hstart' ▸ .starts (by simp [hphase]) hchosen
    · exact phaseGap_runs hlast ▸ .gapRuns hphase hlast
  | wait =>
    cases hchosen : chosen pd ps s with
    | none =>
      rw [hchosen] at hstart
      by_cases hlast : s.key.timer.toNat = 1
      · exact phaseWait_expires hlast hstart ▸ .waitExpires hphase hlast hchosen
      · exact phaseWait_runs hlast hstart ▸ .waitRuns hphase hlast hchosen
    | some x =>
      rw [hchosen] at hstart
      exact phaseWait_starts hstart ▸ .starts (by simp [hphase]) hchosen
  | idle =>
    cases hchosen : chosen pd ps s with
    | none =>
      rw [hchosen] at hstart
      exact (phaseIdle_rests hstart).symm ▸ .rests hphase hchosen
    | some x =>
      rw [hchosen] at hstart
      exact phaseIdle_starts hstart ▸ .starts (by simp [hphase]) hchosen

/-- A key step writes the key engine, but none of its settings, and `ev`. -/
theorem IambicMove.frame {pd ps : Bool} {s t : State} (h : IambicMove pd ps s t) :
    t.key.settings = s.key.settings ∧ t = { s with key := t.key, ev := t.ev } := by
  cases h <;> exact ⟨rfl, rfl⟩

theorem iambicNext_settings (pd ps : Bool) (s : State) : (iambicNext pd ps s).key.settings = s.key.settings :=
  (iambicNext_move pd ps s).frame.1

theorem iambicNext_frame (pd ps : Bool) (s : State) :
    iambicNext pd ps s = { s with key := (iambicNext pd ps s).key, ev := (iambicNext pd ps s).ev } :=
  (iambicNext_move pd ps s).frame.2

/-! ## Everything a tick sub-operation can do -/

/-- From the flags `a` to the flags `b`: none is cleared, and only flags of `mask` are raised. -/
structure Raises (mask a b : BitVec 12) : Prop where
  kept : a &&& b = a
  within : ∀ k : Nat, a.getLsbD k = false → b.getLsbD k = true → mask.getLsbD k = true

section
variable {mask m a b c : BitVec 12}

theorem Raises.refl (mask a : BitVec 12) : Raises mask a a where
  kept := BitVec.and_self
  within k hlow hhigh := by simp [hlow] at hhigh

theorem Raises.or (hm : m &&& mask = m) (a : BitVec 12) : Raises mask a (a ||| m) where
  kept := by ext i hi; simp +contextual
  within k hlow hhigh := by
    rw [BitVec.getLsbD_or, hlow, Bool.false_or, ← hm, BitVec.getLsbD_and, Bool.and_eq_true] at hhigh
    exact hhigh.2

theorem Raises.or_mask (mask a : BitVec 12) : Raises mask a (a ||| mask) := Raises.or BitVec.and_self a

theorem Raises.or_if (hm : m &&& mask = m) (raised : Bool) (a : BitVec 12) :
    Raises mask a (a ||| if raised = true then m else 0) := by
  cases raised
  · simpa using Raises.refl mask a
  · exact Raises.or hm a

theorem Raises.trans (hab : Raises mask a b) (hbc : Raises mask b c) : Raises mask a c where
  kept := by rw [← hab.kept, BitVec.and_assoc, hbc.kept]
  within k hlow hhigh := by
    cases hmid : b.getLsbD k with
    | false => exact hbc.within k hmid hhigh
    | true => exact hab.within k hlow hmid

end

/-- What a tick sub-operation makes of the state: the elements it writes, with the conditions of the sequencer's moves
(40_tick_scheduler.md R102, R104; 41 R121 to R124; 42 R141; 43 R154; 44 R195, R197; 45 R237). -/
inductive TickEffect (s : State) : Instr → State → Prop
  | tCount {n : Word} : TickEffect s .tCount { s with tcount := n }
  | sDebounce {raw db : Lines Bool} {cnt : Lines Nat} :
      TickEffect s (.sDebounce raw) { s with db := db, cnt := cnt, locals := { s.locals with old := s.db } }
  | sEdge {flags : BitVec 12} (raises : Raises 0x0E0 s.evflags flags) :
      TickEffect s .sEdge { s with evflags := flags }
  | sQdec {v : BitVec 2} : TickEffect s .sQdec { s with encoderValue := v, encoderLastClock := s.db.encA }
  | sRitlong {t0 : Word} {armed : Bool} {flags : BitVec 12} (raises : Raises 0x100 s.evflags flags) :
      TickEffect s .sRitlong { s with ritT0 := t0, ritArmed := armed, evflags := flags }
  | kStraight {c down : Bool} {e : Event} :
      TickEffect s (.kStraight c) { s with ev := e, key := { s.key with keyDown := down } }
  | kIambic {pd ps : Bool} {e : Event} {k : KeyState} (settings : k.settings = s.key.settings) :
      TickEffect s (.kIambic pd ps) { s with key := k, ev := e }
  | pFeed {pb : Playback} {flags : BitVec 12} (raises : Raises 0x200 s.evflags flags) :
      TickEffect s .pFeed { s with pb := pb, evflags := flags }
  | qAutoKeying (mode : s.mode = .default) (event : s.ev ∈ [Event.start, .dot, .dash]) :
      TickEffect s .qAuto { s with
        mode := .keying, pb := { pat := 0, rem := 0, active := false }
        locals := { s.locals with transitioned := true } }
  | qAutoDefault (mode : s.mode = .keying) (event : s.ev = .eoc ∨ (s.key.mode = .straight ∧ s.ev = .eoe)) :
      TickEffect s .qAuto { entered .default s with locals := { s.locals with transitioned := true } }
  | qAutoStays : TickEffect s .qAuto { s with locals := { s.locals with transitioned := false } }
  | qBeaconFires (fires : beaconFires s = true) : TickEffect s .qBeacon (entered .memSendTx s)
  | qBeaconStays : TickEffect s .qBeacon s
  | tBlink : TickEffect s .tBlink { s with blink := blinkOf s.cfg s.tcount }

section
variable {s t : State}

theorem exec_sEdge_effect (h : exec .sEdge s = .next t) : TickEffect s .sEdge t := by
  simp only [exec_sEdge, flagIf_eq] at h
  cases h
  exact .sEdge ((Raises.or_if (m := Flag.mask .encBtnPress) rfl _ _).trans
    ((Raises.or_if (m := Flag.mask .ritPress) rfl _ _).trans (Raises.or_if (m := Flag.mask .keyerPress) rfl _ _)))

theorem exec_sRitlong_effect (h : exec .sRitlong s = .next t) : TickEffect s .sRitlong t := by
  rw [exec_sRitlong] at h
  split at h
  · rw [ritArm_eq] at h
    cases h
    exact .sRitlong (Raises.or_mask _ _)
  · rw [ritArm_eq] at h
    cases h
    exact .sRitlong (Raises.refl _ _)

theorem exec_kStraight_effect {c : Bool} (h : exec (.kStraight c) s = .next t) : TickEffect s (.kStraight c) t := by
  obtain ⟨hclose, hopen, hsame⟩ := straightKeyFollowsTheContact c s
  by_cases hc : c = s.key.keyDown
  · rw [hsame hc] at h
    cases h
    exact .kStraight
  · cases c with
    | false =>
      rw [hopen rfl (by simpa using Ne.symm hc)] at h
      cases h
      exact .kStraight
    | true =>
      rw [hclose rfl (by simpa using Ne.symm hc)] at h
      cases h
      exact .kStraight

theorem exec_pFeed_effect (h : exec .pFeed s = .next t) : TickEffect s .pFeed t := by
  by_cases hother : s.pb.active = false ∨ (s.ev ≠ .dot ∧ s.ev ≠ .dash ∧ s.ev ≠ .eoc)
  · rw [exec_pFeed_other hother] at h
    cases h
    exact .pFeed (Raises.refl _ _)
  · simp only [not_or, Bool.not_eq_false, not_and_or, not_not] at hother
    obtain ⟨hactive, hev⟩ := hother
    obtain hdot | hdash | heoc := hev
    · rw [exec_pFeed_element hactive (.inl hdot)] at h
      cases h
      exact .pFeed (Raises.refl _ _)
    · rw [exec_pFeed_element hactive (.inr hdash)] at h
      cases h
      exact .pFeed (Raises.refl _ _)
    · rw [exec_pFeed_eoc hactive heoc] at h
      cases h
      exact .pFeed (Raises.or_mask _ _)

theorem exec_qAuto_effect (h : exec .qAuto s = .next t) : TickEffect s .qAuto t := by
  obtain ⟨hkeying, hdefault, hstays⟩ := autoFollowsKeyEvents s
  by_cases hstart : s.mode = .default ∧ s.ev ∈ [Event.start, .dot, .dash]
  · obtain ⟨hmode, hev⟩ := hstart
    rw [hkeying hmode hev] at h
    cases h
    exact .qAutoKeying hmode hev
  · by_cases hend : s.mode = .keying ∧ (s.ev = .eoc ∨ (s.key.mode = .straight ∧ s.ev = .eoe))
    · obtain ⟨hmode, hev⟩ := hend
      rw [hdefault hmode hev] at h
      cases h
      exact .qAutoDefault hmode hev
    · rw [hstays hstart hend] at h
      cases h
      exact .qAutoStays

theorem exec_qBeacon_effect (h : exec .qBeacon s = .next t) : TickEffect s .qBeacon t := by
  rw [exec_qBeacon] at h
  cases hfires : beaconFires s with
  | false =>
    simp only [hfires] at h
    cases h
    exact .qBeaconStays
  | true =>
    simp only [hfires] at h
    cases h
    exact .qBeaconFires hfires

end

theorem exec_tick_effect {i : Instr} {s t : State} (htick : i.isCommand = false) (h : exec i s = .next t) :
    TickEffect s i t := by
  cases i with
  | tCount => cases h; exact .tCount
  | sDebounce raw => cases h; exact .sDebounce
  | sEdge => exact exec_sEdge_effect h
  | sQdec => cases h; exact .sQdec
  | sRitlong => exact exec_sRitlong_effect h
  | kStraight c => exact exec_kStraight_effect h
  | kIambic pd ps =>
    rw [exec_kIambic, iambicNext_frame] at h
    cases h
    exact .kIambic (iambicNext_settings pd ps s)
  | pFeed => exact exec_pFeed_effect h
  | qAuto => exact exec_qAuto_effect h
  | qBeacon => exact exec_qBeacon_effect h
  | tBlink => cases h; exact .tBlink
  | _ => cases htick

end Sys2Proof.Machine

/-!
The proofs of O45, O46 and O47: what every operation writes, from the two case lists `Behaves` and `TickEffect`.
-/

namespace Sys2Proof.Machine

open Sys2Proof.Safety

/-- Settles O45: of the commands only the performed ones of seven rules change the mode, of the tick sub-operations only
the moves of `Q.AUTO` and `Q.BEACON`. -/
theorem onlyTheTabledTransitions : Obligations.OnlyTheTabledTransitions := by
  intro i s t h hne
  cases hcommand : i.isCommand with
  | true =>
    cases behaves_of_exec hcommand h with
    | rejected no => exact absurd rfl hne
    | performed rsp yes effect =>
      cases effect with
      | initDone mode => exact .inl ⟨rfl, mode, rfl⟩
      | select mode tag =>
        refine .inr (.inl ⟨mode, _, rfl, selectTarget_tag tag, ?_⟩)
        by_contra hnot
        rw [(selectTarget_eq_none_iff _).mpr hnot] at tag
        cases tag
      | confirm mode move => exact .inr (.inr (.inl ⟨rfl, (confirmTarget_eq_some_iff _ _).mp move⟩))
      | confirmSpeed mode =>
        exact .inr (.inr (.inl ⟨rfl, (confirmTarget_eq_some_iff _ _).mp (by rw [mode]; rfl)⟩))
      | cancel legal mode =>
        exact .inr (.inr (.inr (.inl ⟨rfl, (Mode.cancellable_iff _).mp legal, rfl⟩)))
      | cancelSpeed mode =>
        exact .inr (.inr (.inr (.inl ⟨rfl, (Mode.cancellable_iff _).mp (by rw [mode]; rfl), rfl⟩)))
      | memDone mode idle => exact .inr (.inr (.inr (.inr (.inl ⟨rfl, mode, idle, rfl⟩))))
      | fault mode => exact .inr (.inr (.inr (.inr (.inr (.inl ⟨⟨_, rfl⟩, mode, rfl⟩)))))
      | play mode idle => exact absurd (loadPattern_mode _ s) hne
      | _ => exact absurd rfl hne
  | false =>
    cases exec_tick_effect hcommand h with
    | qAutoKeying mode event =>
      exact .inr (.inr (.inr (.inr (.inr (.inr (.inl ⟨rfl, mode, event, rfl⟩))))))
    | qAutoDefault mode event =>
      exact .inr (.inr (.inr (.inr (.inr (.inr (.inr (.inl ⟨rfl, mode, event, rfl⟩)))))))
    | qBeaconFires fires =>
      obtain ⟨_, mode, quiet, beacon, elapsed⟩ := (beaconFires_iff s).mp fires
      exact .inr (.inr (.inr (.inr (.inr (.inr (.inr (.inr ⟨rfl, mode, beacon, quiet, elapsed, rfl⟩)))))))
    | _ => exact absurd rfl hne

/-! ## Who writes what -/

/-- The flags of a mask, by evaluation. -/
theorem getLsbD_mask_iff {mask : BitVec 12} {P : Nat → Prop} [DecidablePred P]
    (h : ∀ k : Fin 12, mask.getLsbD k = true → P k) {k : Nat} (hk : mask.getLsbD k = true) : P k :=
  h ⟨k, BitVec.lt_of_getLsbD hk⟩ hk

theorem pressBit {k : Nat} (h : (0x0E0#12).getLsbD k = true) : 5 ≤ k ∧ k ≤ 7 :=
  getLsbD_mask_iff (P := fun k => 5 ≤ k ∧ k ≤ 7) (by decide) h

theorem ritLongBit {k : Nat} (h : (0x100#12).getLsbD k = true) : k = 8 :=
  getLsbD_mask_iff (P := (· = 8)) (by decide) h

theorem pbDoneBit {k : Nat} (h : (0x200#12).getLsbD k = true) : k = 9 :=
  getLsbD_mask_iff (P := (· = 9)) (by decide) h

theorem pbReqBit {k : Nat} (h : (0x400#12).getLsbD k = true) : k = 10 :=
  getLsbD_mask_iff (P := (· = 10)) (by decide) h

theorem cmdRejBit {k : Nat} (h : (0x800#12).getLsbD k = true) : k = 11 :=
  getLsbD_mask_iff (P := (· = 11)) (by decide) h

/-- A flag that was 0 and is 1 under a mask is one of the mask's. -/
theorem mask_of_raised {a m : BitVec 12} {k : Nat} (hlow : a.getLsbD k = false)
    (hhigh : a.getLsbD k = true ∨ m.getLsbD k = true) : m.getLsbD k = true :=
  hhigh.resolve_left (by simp [hlow])

theorem selectTarget_ne {m : BitVec 5} {target other : Mode} (h : selectTarget m = some target)
    (hother : selectTarget other.tag = none) : target ≠ other := by
  rintro rfl
  rw [selectTarget_tag h, h] at hother
  cases hother

/-- `CONFIRM` leaves the mode, and it is not legal in `DEFAULT` or `MEM_SEND_TX`. -/
theorem confirmTarget_moves {m target : Mode} (h : confirmTarget m = some target) :
    target ≠ m ∧ m ≠ .default ∧ m ≠ .memSendTx := by
  cases m <;> cases h <;> decide

/-- Settles O46, effect by effect: each element of the next state but the written ones is the old state's by the form of
the effect, and the flags raised are those of the effect's mask. -/
theorem eachElementHasItsWriters : Obligations.EachElementHasItsWriters := by
  intro i s t h
  cases hcommand : i.isCommand with
  | true =>
    cases behaves_of_exec hcommand h with
    | rejected no =>
      simpa [rejected, hcommand] using ⟨fun _ => (Raises.or_mask _ _).kept,
        fun k hlow hhigh => .inr (.inr (.inr (cmdRejBit (mask_of_raised hlow hhigh))))⟩
    | performed rsp yes effect =>
      cases effect with
      | nop => simp [answered]
      | initDone mode => simp [answered, entered, loaded, withSpeed, atRest, mode]
      | select mode tag =>
        have hdefault := selectTarget_ne tag (other := .default) rfl
        have hsend := selectTarget_ne tag (other := .memSendTx) rfl
        simp [answered, entered, atRest, mode, hdefault, hsend]
      | @confirm target mode move =>
        obtain ⟨hmoves, hdefault, hsend⟩ := confirmTarget_moves move
        by_cases htarget : target = .memSendTx
        · subst htarget
          simpa [answered, entered, atRest, hmoves, hsend] using
            ⟨(Raises.or_mask _ _).kept, fun k hlow hhigh => pbReqBit (mask_of_raised hlow hhigh)⟩
        · simp +contextual [answered, entered, atRest, hmoves, hdefault, htarget]
      | confirmSpeed mode => simp [answered, entered, atRest, mode, loaded, saved, withSpeed]
      | cancel legal mode =>
        have hdefault : s.mode ≠ .default := by
          rintro hmode
          rw [hmode] at legal
          cases legal
        simp [answered, entered, atRest, hdefault, hdefault.symm]
      | cancelSpeed mode => simp [answered, entered, atRest, mode, loaded, withSpeed]
      | memDone mode idle => simp [answered, entered, atRest, mode]
      | fault mode => simp [answered, entered, atRest, mode.symm]
      | setSpeed mode low high => simp [answered, withSpeed]
      | setKeymode mode => simp [answered, atRest]
      | setBeacon mode => simp [answered]
      | setMemidx sending mode slot => simp [answered]
      | @play c mode idle =>
        by_cases hpattern : 2 ≤ (patternOf s.cfg c).toNat
        · simp +contextual [answered, hpattern]
        · simpa [answered, hpattern] using
            ⟨(Raises.or_mask _ _).kept, fun k hlow hhigh => pbDoneBit (mask_of_raised hlow hhigh)⟩
      | drainEnc => simp [answered]
      | ack => simp +contextual [answered]
  | false =>
    cases exec_tick_effect hcommand h with
    | tCount => simp
    | sDebounce => simp
    | sEdge raises => simpa using ⟨raises.kept, fun k hlow hhigh => pressBit (raises.within k hlow hhigh)⟩
    | sQdec => simp
    | sRitlong raises => simpa using ⟨raises.kept, fun k hlow hhigh => ritLongBit (raises.within k hlow hhigh)⟩
    | kStraight => simp
    | kIambic settings => simpa [KeyState.settings] using settings
    | pFeed raises => simpa using ⟨raises.kept, fun k hlow hhigh => pbDoneBit (raises.within k hlow hhigh)⟩
    | qAutoKeying mode event => simp [mode]
    | qAutoDefault mode event => simp [entered, atRest, mode]
    | qAutoStays => simp
    | qBeaconFires fires =>
      obtain ⟨_, mode, _⟩ := (beaconFires_iff s).mp fires
      simpa [entered, atRest, mode] using
        ⟨(Raises.or_mask _ _).kept, fun k hlow hhigh => pbReqBit (mask_of_raised hlow hhigh)⟩
    | qBeaconStays => simp
    | tBlink => simp

/-! ## Storage accesses -/

/-- The accesses of an operation (20_memory.md R75). -/
def accesses (i : Instr) (s : State) : List NvAccess :=
  if i = .initDone ∧ s.mode = .startup ∨ i = .cancel ∧ s.mode = .adjustCs then
    [.read s.cfg.nvSpeedAddr (s.nv.read s.cfg.nvSpeedAddr)]
  else if i = .confirm ∧ s.mode = .adjustCs then
    [.write s.cfg.nvSpeedAddr (s.key.speed.setWidth 8), .read s.cfg.nvSpeedAddr (s.key.speed.setWidth 8)]
  else []

section
variable {i : Instr} {s t : State}

theorem loaded_bus (s : State) :
    (loaded s).bus = s.bus ++ [.read s.cfg.nvSpeedAddr (s.nv.read s.cfg.nvSpeedAddr)] := rfl

theorem loaded_saved_bus (s : State) : (loaded (saved s)).bus =
    s.bus ++ [.write s.cfg.nvSpeedAddr (s.key.speed.setWidth 8),
      .read s.cfg.nvSpeedAddr (s.key.speed.setWidth 8)] := by
  rw [loaded_saved]
  rfl

/-- The accesses and the contents of storage after every operation, effect by effect. -/
theorem storage_of_exec (h : exec i s = .next t) : t.bus = s.bus ++ accesses i s ∧
    t.nv = if i = .confirm ∧ s.mode = .adjustCs then (saved s).nv else s.nv := by
  cases hcommand : i.isCommand with
  | true =>
    cases behaves_of_exec hcommand h with
    | rejected no =>
      have hread : ¬ (i = .initDone ∧ s.mode = .startup ∨ i = .cancel ∧ s.mode = .adjustCs) := by
        rintro (⟨rfl, hmode⟩ | ⟨rfl, hmode⟩)
        · simp [accepted_initDone.mpr hmode] at no
        · simp [accepted_cancel.mpr (by rw [hmode]; rfl : s.mode.cancellable = true)] at no
      have hwrite : ¬ (i = .confirm ∧ s.mode = .adjustCs) := by
        rintro ⟨rfl, hmode⟩
        simp [accepted_confirm.mpr (by simp [hmode, confirmTarget] : confirmTarget s.mode ≠ none)] at no
      rw [accesses, if_neg hread, if_neg hwrite, if_neg hwrite]
      exact ⟨(List.append_nil _).symm, rfl⟩
    | performed rsp yes effect =>
      cases effect with
      | initDone mode => exact ⟨by simp [answered, entered, loaded_bus, accesses, mode], rfl⟩
      | confirm mode move => simp [answered, entered, accesses, mode]
      | confirmSpeed mode => 
        simp [answered, entered, loaded_saved_bus, accesses, mode]
        rfl
      | cancel legal mode => simp [answered, entered, accesses, mode]
      | cancelSpeed mode => exact ⟨by simp [answered, entered, loaded_bus, accesses, mode], rfl⟩
      | play mode idle => simp [answered, accesses]
      | _ => exact ⟨by simp [answered, accesses, entered, withSpeed], rfl⟩
  | false =>
    have hinit : i ≠ .initDone := by rintro rfl; cases hcommand
    have hcancel : i ≠ .cancel := by rintro rfl; cases hcommand
    have hconfirm : i ≠ .confirm := by rintro rfl; cases hcommand
    simp only [accesses, hinit, hcancel, hconfirm, false_and, or_self, if_false, List.append_nil]
    cases exec_tick_effect hcommand h <;> exact ⟨rfl, rfl⟩

end

/-- Settles O47: the accesses and the contents are those of `storage_of_exec`, and the port shows the accesses, which are
a read, a write with the read back, or none. -/
theorem onlyTheTabledStorageAccesses : Obligations.OnlyTheTabledStorageAccesses := by
  intro i s t h
  obtain ⟨hbus, hnv⟩ := storage_of_exec h
  refine ⟨hbus, fun a ha => ?_, fun hi hmode => ?_, fun hno => ?_, fun hempty => ?_⟩
  · rw [hnv]
    split
    · exact Memory.read_write_other _ _ _ _ ha
    · rfl
  · rw [hnv, if_pos ⟨hi, hmode⟩]
    exact saved_nv_read s
  · rw [hnv, if_neg hno]
  · rw [hempty, List.nil_append, accesses] at hbus
    simp only [nvAddrOut, nvWdataOut, nvReOut, nvWeOut, hbus]
    by_cases hread : i = .initDone ∧ s.mode = .startup ∨ i = .cancel ∧ s.mode = .adjustCs
    · have hconfirm : i ≠ .confirm := by
        rintro rfl
        simp at hread
      simp [hread, hconfirm, NvAccess.addr, NvAccess.wdata]
    · by_cases hwrite : i = .confirm ∧ s.mode = .adjustCs
      · simp [hwrite, NvAccess.addr, NvAccess.wdata, List.findSome?_cons]
      · have hport :
            ¬ (i = .initDone ∧ s.mode = .startup ∨ (i = .cancel ∨ i = .confirm) ∧ s.mode = .adjustCs) := by
          tauto
        simp [hread, hwrite, hport]

end Sys2Proof.Machine

/-!
SUPPORT and the proofs of O7, O8, O9, O42, O44, O57 and O59. The clock cycle and the tick step: the tick step as a
composition of what its sub-operations make of the state, which all complete (40_tick_scheduler.md R100, R101).
-/

namespace Sys2Proof.Machine

open Sys2Proof.Safety

/-! ## The clock cycle -/

section
variable {s : State}

theorem strobe_eq_true (h : s.presc + 1 = s.cfg.tickDiv) : strobe s = true := decide_eq_true h.ge

theorem strobe_eq_false (h : s.presc + 1 < s.cfg.tickDiv) : strobe s = false := decide_eq_false (not_le.mpr h)

/-- A cycle that takes a command is its command step. -/
theorem step_command (hrst : (pins s).rst = false) (hpresc : s.presc + 1 < s.cfg.tickDiv)
    (hvalid : (pins s).cmdValid = true) :
    step s = commandStep (pins s).cmd { beginCycle s with presc := s.presc + 1 } :=
  clockCycle_command hrst (strobe_eq_false hpresc) hvalid

end

/-- Settles O7: a taken command's cycle is its command step, and that is `exec` of the decoded word. -/
theorem stepRunsTheTakenCommand : Obligations.StepRunsTheTakenCommand := by
  intro s i hrst hpresc hvalid hdec
  rw [step_command hrst hpresc hvalid, commandStep_of_decode hdec]
  rfl

/-- Settles O8, by the four cases of a clock cycle. -/
theorem resetBeatsTickBeatsCommand : Obligations.ResetBeatsTickBeatsCommand := by
  intro s
  refine ⟨fun hrst => ⟨?_, step_reset hrst⟩, fun hrst hpresc => ⟨?_, ?_⟩, fun hrst hpresc hvalid => ⟨?_, ?_⟩,
    fun hrst hpresc hvalid => ⟨?_, ?_⟩⟩
  · simp [cmdReady, hrst]
  · simp [cmdReady, strobe_eq_true hpresc]
  · exact clockCycle_tick hrst (strobe_eq_true hpresc)
  · simp [cmdReady, hrst, strobe_eq_false hpresc]
  · exact step_command hrst hpresc hvalid
  · simp [cmdReady, hrst, strobe_eq_false hpresc]
  · exact clockCycle_idle hrst (strobe_eq_false hpresc) hvalid

/-! ## The tick step as a composition -/

/-- The state a tick sub-operation leaves; it never stops (`exec_tickNext`). -/
def tickNext (i : Instr) (s : State) : State :=
  match exec i s with
  | .next t => t
  | .fault _ => s
  | .refused _ => s

theorem exec_tickNext {i : Instr} (h : i.isCommand = false) (s : State) : exec i s = .next (tickNext i s) := by
  obtain ⟨t, ht⟩ := exec_tick_next i h s
  rw [tickNext, ht]

/-- Lines 1 to 5 of the tick step: the count and the sampler. -/
def sampled (raw : Lines Bool) (s : State) : State :=
  tickNext .sRitlong (tickNext .sQdec (tickNext .sEdge (tickNext (.sDebounce raw) (tickNext .tCount s))))

/-- Line 7 of the tick step: the key step. -/
def keyed (s : State) : State :=
  if s.mode.physKey then
    if s.key.mode = .straight then tickNext (.kStraight s.db.dot) s
    else tickNext (.kIambic s.db.dot s.db.dash) s
  else if s.mode = .memSendTx then
    tickNext .pFeed (tickNext (.kIambic (virtualPaddles s).1 (virtualPaddles s).2) s)
  else s

/-- Lines 8 to 11 of the tick step: the event's flag, the sequencer, the blink phases. -/
def sequenced (s : State) : State :=
  clearLocals (tickNext .tBlink (tickNext .qBeacon (tickNext .qAuto (flagEvent s))))

theorem keyStep_eq_keyed (s : State) : keyStep s = .next (keyed s) := by
  unfold keyStep keyed
  split
  · cases hkey : s.key.mode with
    | iambic => exact exec_tickNext rfl s
    | straight => exact exec_tickNext rfl s
  · split
    · rw [exec_tickNext (i := .kIambic _ _) rfl, andThen_next, exec_tickNext rfl]
    · rfl

/-- The tick step completes, in three parts: sampling, the key step on a cleared event, sequencing. -/
theorem tickStep_eq (raw : Lines Bool) (s : State) :
    tickStep raw s = .next (sequenced (keyed (clearEvent (sampled raw s)))) := by
  simp only [tickStep, exec_tickNext (i := .tCount) rfl, exec_tickNext (i := .sDebounce raw) rfl,
    exec_tickNext (i := .sEdge) rfl, exec_tickNext (i := .sQdec) rfl, exec_tickNext (i := .sRitlong) rfl,
    exec_tickNext (i := .qAuto) rfl, exec_tickNext (i := .qBeacon) rfl, exec_tickNext (i := .tBlink) rfl,
    andThen_next, keyStep_eq_keyed]
  rfl

theorem eventBit_eq (e : Event) : (e.flag.map Flag.mask).getD 0 = eventBit e := by
  cases e <;> rfl

theorem flagEvent_eq (s : State) : flagEvent s = { s with evflags := s.evflags ||| eventBit s.ev } := by
  rw [← eventBit_eq]
  unfold flagEvent
  split
  case h_1 hnone => simp [hnone]
  case h_2 f hsome => simp [hsome, flag]

theorem Mode.physKey_iff (m : Mode) : m.physKey = true ↔ m ∈ [Mode.default, .keying, .adjustCs, .memEnter] := by
  simp [Mode.physKey]

section
variable {s : State}

theorem keyed_straight (hmode : s.mode ∈ [Mode.default, .keying, .adjustCs, .memEnter])
    (hkey : s.key.mode = .straight) : keyed s = tickNext (.kStraight s.db.dot) s := by
  rw [keyed, if_pos ((Mode.physKey_iff _).mpr hmode), if_pos hkey]

theorem keyed_iambic (hmode : s.mode ∈ [Mode.default, .keying, .adjustCs, .memEnter])
    (hkey : s.key.mode = .iambic) : keyed s = iambicNext s.db.dot s.db.dash s := by
  rw [keyed, if_pos ((Mode.physKey_iff _).mpr hmode), if_neg (by simp [hkey])]
  rfl

theorem keyed_memSendTx (hmode : s.mode = .memSendTx) :
    keyed s = tickNext .pFeed (iambicNext (virtualPaddles s).1 (virtualPaddles s).2 s) := by
  rw [keyed, if_neg (by rw [hmode]; decide), if_pos hmode]
  rfl

theorem keyed_other (hmode : s.mode ∉ [Mode.default, .keying, .adjustCs, .memEnter, .memSendTx]) : keyed s = s := by
  have hphys : ¬ s.mode.physKey = true := by
    rw [Mode.physKey_iff]
    simp only [List.mem_cons, List.not_mem_nil, or_false] at hmode ⊢
    tauto
  have hsend : s.mode ≠ .memSendTx := by
    rintro hsend
    simp [hsend] at hmode
  rw [keyed, if_neg hphys, if_neg hsend]

end

/-- Settles O9: the states between are those of the composition (`tickStep_eq`), the key step's by its mode. -/
theorem tickStepOrder : Obligations.TickStepOrder := by
  intro raw s
  let s2 := tickNext (.sDebounce raw) (tickNext .tCount s)
  let s6 := keyed (clearEvent (sampled raw s))
  let s8 := tickNext .qBeacon (tickNext .qAuto (flagEvent s6))
  refine ⟨tickNext .tCount s, s2, tickNext .sEdge s2, tickNext .sQdec (tickNext .sEdge s2), sampled raw s, s6,
    tickNext .qAuto (flagEvent s6), s8, tickNext .tBlink s8, exec_tickNext rfl _, exec_tickNext rfl _, exec_tickNext rfl _,
    exec_tickNext rfl _, exec_tickNext rfl _, fun hmode hkey => ?_, fun hmode hkey => ?_, fun hmode => ?_,
    fun hmode => ?_, ?_, exec_tickNext rfl _, exec_tickNext rfl _, ?_⟩
  · exact (exec_tickNext rfl _).trans (congrArg _ (keyed_straight (s := clearEvent (sampled raw s)) hmode hkey).symm)
  · exact congrArg _ (keyed_iambic (s := clearEvent (sampled raw s)) hmode hkey).symm
  · exact ⟨_, rfl, (exec_tickNext rfl _).trans
      (congrArg _ (keyed_memSendTx (s := clearEvent (sampled raw s)) hmode).symm)⟩
  · exact keyed_other (s := clearEvent (sampled raw s)) hmode
  · rw [← flagEvent_eq]
    exact exec_tickNext rfl _
  · exact tickStep_eq raw s

/-! ## Completion -/

theorem commandStep_completes {s : State} (h : s.cfg.nvSpeedAddr < s.cfg.nvSize) (w : BitVec 16) :
    ∃ t, commandStep w s = .next t := by
  cases hdec : decode w with
  | error e => exact ⟨_, commandStep_of_error hdec s⟩
  | ok i =>
    obtain ⟨t, ht, _⟩ := legalityMatrix i s (isCommand_of_decode hdec) h
    exact ⟨t, (commandStep_of_decode hdec s).trans ht⟩

/-- A clock cycle is one of four things (R250, R286, R300). -/
theorem step_cases {P : Result → Prop} (s : State)
    (reset : (pins s).rst = true → P (.next (hwReset (beginCycle s))))
    (tick : (pins s).rst = false → strobe s = true →
      P (.next (sequenced (keyed (clearEvent (sampled (pins s).raw { beginCycle s with presc := 0 }))))))
    (command : (pins s).rst = false → strobe s = false →
      P (commandStep (pins s).cmd { beginCycle s with presc := s.presc + 1 }))
    (idle : (pins s).rst = false → strobe s = false → P (.next { beginCycle s with presc := s.presc + 1 })) :
    P (step s) := by
  unfold step
  cases hrst : (pins s).rst with
  | true => rw [clockCycle_reset hrst]; exact reset hrst
  | false =>
    cases hstrobe : strobe s with
    | true => rw [clockCycle_tick hrst hstrobe, tickStep_eq]; exact tick hrst hstrobe
    | false =>
      cases hvalid : (pins s).cmdValid with
      | true => rw [clockCycle_command hrst hstrobe hvalid]; exact command hrst hstrobe
      | false => rw [clockCycle_idle hrst hstrobe hvalid]; exact idle hrst hstrobe

/-- Settles O42: of the four things a cycle can be only a command step could stop, and inside storage it does not. -/
theorem everyStepCompletes : Obligations.EveryStepCompletes := by
  intro s hin
  refine step_cases (P := fun o => ∃ t, o = .next t) s (fun _ => ⟨_, rfl⟩) (fun _ _ => ⟨_, rfl⟩) (fun _ _ => ?_)
    fun _ _ => ⟨_, rfl⟩
  exact commandStep_completes (s := { beginCycle s with presc := s.presc + 1 }) hin _

/-! ## What the parts of the tick step leave alone -/

theorem tickNext_of_exec {i : Instr} {s t : State} (h : exec i s = .next t) : tickNext i s = t := by
  rw [tickNext, h]

theorem tickNext_effect {i : Instr} (h : i.isCommand = false) (s : State) : TickEffect s i (tickNext i s) :=
  exec_tick_effect h (exec_tickNext h s)

/-- What the sampler leaves alone. -/
structure SamplerFrame (s t : State) : Prop where
  cfg : t.cfg = s.cfg
  presc : t.presc = s.presc
  key : t.key = s.key
  mode : t.mode = s.mode
  beacon : t.beacon = s.beacon
  memTxIndex : t.memTxIndex = s.memTxIndex
  beaconT0 : t.beaconT0 = s.beaconT0
  pb : t.pb = s.pb
  errcode : t.errcode = s.errcode
  nv : t.nv = s.nv

theorem SamplerFrame.trans {s t u : State} (hst : SamplerFrame s t) (htu : SamplerFrame t u) : SamplerFrame s u where
  cfg := htu.cfg.trans hst.cfg
  presc := htu.presc.trans hst.presc
  key := htu.key.trans hst.key
  mode := htu.mode.trans hst.mode
  beacon := htu.beacon.trans hst.beacon
  memTxIndex := htu.memTxIndex.trans hst.memTxIndex
  beaconT0 := htu.beaconT0.trans hst.beaconT0
  pb := htu.pb.trans hst.pb
  errcode := htu.errcode.trans hst.errcode
  nv := htu.nv.trans hst.nv

/-- The operations of lines 1 to 5 of the tick step. -/
inductive Samples : Instr → Prop
  | tCount : Samples .tCount
  | sDebounce (raw : Lines Bool) : Samples (.sDebounce raw)
  | sEdge : Samples .sEdge
  | sQdec : Samples .sQdec
  | sRitlong : Samples .sRitlong

theorem TickEffect.samplerFrame {i : Instr} {s t : State} (hi : Samples i) (h : TickEffect s i t) :
    SamplerFrame s t := by
  cases hi <;> cases h <;> constructor <;> rfl

theorem Samples.frame {i : Instr} (hi : Samples i) (s : State) : SamplerFrame s (tickNext i s) :=
  (tickNext_effect (by cases hi <;> rfl) s).samplerFrame hi

theorem sampled_frame (raw : Lines Bool) (s : State) : SamplerFrame s (sampled raw s) :=
  ((((Samples.tCount.frame s).trans ((Samples.sDebounce raw).frame _)).trans (Samples.sEdge.frame _)).trans
    (Samples.sQdec.frame _)).trans (Samples.sRitlong.frame _)

/-- `Q.AUTO` and `Q.BEACON` make no move from another mode (R195, R197). -/
theorem sequenced_of_other {s : State} (hdefault : s.mode ≠ .default) (hkeying : s.mode ≠ .keying) :
    sequenced s = { s with
      evflags := s.evflags ||| eventBit s.ev, blink := blinkOf s.cfg s.tcount, locals := .idle } := by
  obtain ⟨_, _, hauto⟩ := autoFollowsKeyEvents { s with evflags := s.evflags ||| eventBit s.ev }
  have hbeacon : ∀ l : TickLocals, ¬ beaconFires { s with evflags := s.evflags ||| eventBit s.ev, locals := l } = true :=
    fun l hfires => by simp [beaconFires, hdefault] at hfires
  have hqbeacon := fun l => (exec_qBeacon { s with evflags := s.evflags ||| eventBit s.ev, locals := l }).trans
    (congrArg _ (if_neg (hbeacon l)))
  rw [sequenced, flagEvent_eq, tickNext_of_exec (hauto (fun h => hdefault h.1) fun h => hkeying h.1),
    tickNext_of_exec (hqbeacon _), tickNext_of_exec (exec_tBlink _)]
  rfl

/-! ## The sink -/

/-- What a step in `ERROR` keeps (R199). -/
structure StaysInError (s t : State) : Prop where
  mode : t.mode = .error
  errcode : t.errcode = s.errcode
  key : t.key = s.key
  pb : t.pb = s.pb

/-- A tick step in `ERROR`: no key step, no move. -/
theorem tickStep_error (raw : Lines Bool) {s : State} (hmode : s.mode = .error) :
    ∃ t, tickStep raw s = .next t ∧ StaysInError s t := by
  have frame := sampled_frame raw s
  have herror : (clearEvent (sampled raw s)).mode = .error := frame.mode.trans hmode
  rw [tickStep_eq, keyed_other (by rw [herror]; decide),
    sequenced_of_other (by rw [herror]; decide) (by rw [herror]; decide)]
  exact ⟨_, rfl, herror, frame.errcode, frame.key, frame.pb⟩

theorem exec_of_not_accepted {i : Instr} {s : State} (hcommand : i.isCommand = true) (hno : accepted i s = false) :
    exec i s = .next (rejected s) := by
  obtain ⟨o, ho⟩ : ∃ o, exec i s = o := ⟨_, rfl⟩
  rw [ho]
  cases behaves_of_exec hcommand ho with
  | rejected no => rfl
  | performed rsp yes effect => simp [hno] at yes
  | stopped yes outside => simp [hno] at yes

/-- The column of `ERROR` in the legality matrix (46_host_commands.md R252). -/
theorem error_mem_legalModes {i : Instr} (h : Mode.error ∈ legalModes i) :
    i = .nop ∨ i = .drainEnc ∨ ∃ mask, i = .ack mask := by
  cases i <;> simp [legalModes] at h ⊢

theorem of_accepted_in_error {i : Instr} {s : State} (hmode : s.mode = .error) (hyes : accepted i s = true) :
    i = .nop ∨ i = .drainEnc ∨ ∃ mask, i = .ack mask := by
  obtain ⟨_, hmem, _⟩ := accepted_iff.mp hyes
  exact error_mem_legalModes (hmode ▸ hmem)

/-- A command step in `ERROR`. -/
theorem commandStep_error (w : BitVec 16) {s : State} (hmode : s.mode = .error) :
    ∃ t, commandStep w s = .next t ∧ StaysInError s t := by
  cases hdec : decode w with
  | error e => exact ⟨_, commandStep_of_error hdec s, hmode, rfl, rfl, rfl⟩
  | ok i =>
    rw [commandStep_of_decode hdec]
    cases hyes : accepted i s with
    | false => exact ⟨_, exec_of_not_accepted (isCommand_of_decode hdec) hyes, hmode, rfl, rfl, rfl⟩
    | true =>
      obtain rfl | rfl | ⟨mask, rfl⟩ := of_accepted_in_error hmode hyes <;> exact ⟨_, rfl, hmode, rfl, rfl, rfl⟩

theorem step_error {s : State} (hmode : s.mode = .error) (hrst : (pins s).rst = false) :
    ∃ t, step s = .next t ∧ StaysInError s t := by
  refine step_cases (P := fun o => ∃ t, o = .next t ∧ StaysInError s t) s (fun h => ?_) (fun _ _ => ?_)
    (fun _ _ => ?_) fun _ _ => ?_
  · simp [hrst] at h
  · rw [← tickStep_eq]
    obtain ⟨t, ht, stays⟩ := tickStep_error (s := { beginCycle s with presc := 0 }) (pins s).raw hmode
    exact ⟨t, ht, stays.mode, stays.errcode, stays.key, stays.pb⟩
  · obtain ⟨t, ht, stays⟩ := commandStep_error (s := { beginCycle s with presc := s.presc + 1 }) (pins s).cmd hmode
    exact ⟨t, ht, stays.mode, stays.errcode, stays.key, stays.pb⟩
  · exact ⟨_, rfl, hmode, rfl, rfl, rfl⟩

/-- Both enables are low in `ERROR`, whatever the key engine (R202). -/
theorem enables_error {t : State} (hmode : t.mode = .error) : txEn t = false ∧ stEn t = false := by
  simp [txEn, stEn, hmode, Mode.txKey]

/-- Settles O44: the step is `step_error`, and the column of `ERROR` in the legality matrix has three commands
(`of_accepted_in_error`). -/
theorem errorIsLeftOnlyByReset : Obligations.ErrorIsLeftOnlyByReset := by
  refine fun s hmode => ⟨fun hrst => ?_, fun i hcommand hnop hdrain hack => ?_⟩
  · obtain ⟨t, ht, stays⟩ := step_error hmode hrst
    exact ⟨t, ht, stays.mode, stays.errcode, stays.key, stays.pb, enables_error stays.mode⟩
  · refine exec_of_not_accepted hcommand (Bool.eq_false_iff.mpr fun hyes => ?_)
    obtain h | h | ⟨mask, h⟩ := of_accepted_in_error hmode hyes
    · exact hnop h
    · exact hdrain h
    · exact hack mask h

/-! ## Quiet cycles -/

theorem run_succ_of_step {s t : State} (h : step s = .next t) (n : Nat) :
    Host.Core.run core (n + 1) s = Host.Core.run core n t := by
  have hstep : core.step s = .next t := h
  rw [Host.Core.run.eq_2 core s n, hstep]

/-- Cycles with no strobe, no reset and no command only count the prescaler. -/
theorem run_of_quiet (n : Nat) (s : State) (hpresc : s.presc + n < s.cfg.tickDiv) (hlen : n ≤ s.schedule.length)
    (hquiet : ∀ p ∈ s.schedule, p.rst = false ∧ p.cmdValid = false) :
    ∃ answer bus, Host.Core.run core n s = .next { s with
      presc := s.presc + n, schedule := s.schedule.drop n, cycle := s.cycle + n, answer := answer, bus := bus } := by
  induction n generalizing s with
  | zero => exact ⟨s.answer, s.bus, rfl⟩
  | succ n ih =>
    cases hschedule : s.schedule with
    | nil => simp [hschedule] at hlen
    | cons p rest =>
      have hpins : pins s = p := by rw [pins, hschedule, List.headD_cons]
      obtain ⟨hrst, hvalid⟩ := hquiet p (by simp [hschedule])
      have hstep : step s = .next { beginCycle s with presc := s.presc + 1 } :=
        clockCycle_idle (hpins ▸ hrst) (strobe_eq_false (by omega)) (hpins ▸ hvalid)
      obtain ⟨answer, bus, hrun⟩ := ih { beginCycle s with presc := s.presc + 1 }
        (show s.presc + 1 + n < s.cfg.tickDiv by omega)
        (show n ≤ s.schedule.tail.length by rw [List.length_tail]; omega)
        (fun q hq => hquiet q (List.mem_of_mem_tail hq))
      refine ⟨answer, bus, (run_succ_of_step hstep n).trans (hrun.trans ?_)⟩
      simp only [beginCycle, hschedule, List.tail_cons, List.drop_succ_cons, Nat.add_assoc, Nat.add_comm 1 n]

/-- Settles O59, by `run_of_quiet` from a prescaler at 0. -/
theorem oneStrobeEveryTickDivCycles : Obligations.OneStrobeEveryTickDivCycles := by
  intro s n hpresc hn hlen hquiet
  obtain ⟨answer, bus, hrun⟩ := run_of_quiet n s (by omega) hlen hquiet
  rw [hpresc, Nat.zero_add] at hrun
  refine ⟨_, hrun, rfl, ?_⟩
  simp only [strobe, decide_eq_true_eq]
  omega

/-! ## The paddles in playback -/

/-- The state with other values on the two paddles, and other counts. -/
def withPaddles (pd ps : Bool) (cnt : Lines Nat) (s : State) : State :=
  { s with db := { s.db with dot := pd, dash := ps }, cnt := cnt }

/-- The playback after `P.FEED` (R237). -/
def fed (ev : Event) (pb : Playback) : Playback :=
  if pb.active = true ∧ ev.isElement = true then { pb with rem := pb.rem - 1 }
  else if pb.active = true ∧ ev = .eoc then { pb with active := false }
  else pb

theorem tickNext_pFeed (s : State) : tickNext .pFeed s = { s with
    pb := fed s.ev s.pb
    evflags := if s.pb.active = true ∧ s.ev = .eoc then s.evflags ||| Flag.mask .pbDone else s.evflags } := by
  by_cases hactive : s.pb.active = true
  · by_cases helement : s.ev = .dot ∨ s.ev = .dash
    · have heoc : s.ev ≠ .eoc := by
        rintro heoc
        simp [heoc] at helement
      simp [tickNext_of_exec (exec_pFeed_element hactive helement), fed, hactive,
        (Event.isElement_iff _).mpr helement, heoc]
    · have hno : ¬ s.ev.isElement = true := mt (Event.isElement_iff _).mp helement
      by_cases heoc : s.ev = .eoc
      · simp [tickNext_of_exec (exec_pFeed_eoc hactive heoc), fed, hactive, heoc, Event.isElement]
      · have hother : exec .pFeed s = .next s := by
          rw [not_or] at helement
          exact exec_pFeed_other (.inr ⟨helement.1, helement.2, heoc⟩)
        simp [tickNext_of_exec hother, fed, hactive, hno, heoc]
  · have hother : exec .pFeed s = .next s := exec_pFeed_other (.inl (by simpa using hactive))
    simp [tickNext_of_exec hother, fed, hactive]

theorem iambicNext_mode (vd vs : Bool) (s : State) : (iambicNext vd vs s).mode = s.mode := by
  rw [iambicNext_frame]

theorem keyed_mode {s : State} (hmode : s.mode = .memSendTx) : (keyed s).mode = s.mode := by
  rw [keyed_memSendTx hmode, tickNext_pFeed]
  exact iambicNext_mode _ _ s

theorem sequenced_memSendTx {s : State} (hmode : s.mode = .memSendTx) :
    sequenced s = { s with
      evflags := s.evflags ||| eventBit s.ev, blink := blinkOf s.cfg s.tcount, locals := .idle } :=
  sequenced_of_other (by rw [hmode]; decide) (by rw [hmode]; decide)

section
variable {pd ps : Bool} {cnt : Lines Nat} {s : State}

theorem iambicNext_withPaddles (vd vs : Bool) :
    iambicNext vd vs (withPaddles pd ps cnt s) = withPaddles pd ps cnt (iambicNext vd vs s) := by
  have hgraft : iambicNext vd vs (withPaddles pd ps cnt s) =
      graft (iambicNext vd vs s) (withPaddles pd ps cnt s) := iambicNext_graft vd vs s (withPaddles pd ps cnt s)
  rw [hgraft, iambicNext_frame vd vs s]
  rfl

theorem tickNext_sEdge_withPaddles :
    tickNext .sEdge (withPaddles pd ps cnt s) = withPaddles pd ps cnt (tickNext .sEdge s) := by
  rw [tickNext_of_exec (edgeRaisesPressFlags s), tickNext_of_exec (edgeRaisesPressFlags (withPaddles pd ps cnt s))]
  rfl

theorem tickNext_sQdec_withPaddles :
    tickNext .sQdec (withPaddles pd ps cnt s) = withPaddles pd ps cnt (tickNext .sQdec s) := rfl

theorem tickNext_sRitlong_withPaddles :
    tickNext .sRitlong (withPaddles pd ps cnt s) = withPaddles pd ps cnt (tickNext .sRitlong s) := by
  rw [tickNext_of_exec (ritLongRaisedOncePerPress s),
    tickNext_of_exec (ritLongRaisedOncePerPress (withPaddles pd ps cnt s))]
  rfl

theorem keyed_withPaddles (hmode : s.mode = .memSendTx) :
    keyed (withPaddles pd ps cnt s) = withPaddles pd ps cnt (keyed s) := by
  have hvirtual : virtualPaddles (withPaddles pd ps cnt s) = virtualPaddles s := rfl
  rw [keyed_memSendTx hmode, keyed_memSendTx (s := withPaddles pd ps cnt s) hmode, hvirtual, iambicNext_withPaddles,
    tickNext_pFeed, tickNext_pFeed]
  rfl

theorem sequenced_withPaddles (hmode : s.mode = .memSendTx) :
    sequenced (withPaddles pd ps cnt s) = withPaddles pd ps cnt (sequenced s) := by
  rw [sequenced_memSendTx hmode, sequenced_memSendTx (s := withPaddles pd ps cnt s) hmode]
  rfl

end

/-- Raw lines that differ on the paddles only make no difference to the debouncing of the others. -/
theorem tickNext_sDebounce_withPaddles {raw raw' : Lines Bool}
    (h : raw = { raw' with dot := raw.dot, dash := raw.dash }) (s : State) :
    ∃ pd ps cnt, tickNext (.sDebounce raw) s = withPaddles pd ps cnt (tickNext (.sDebounce raw') s) := by
  refine ⟨(tickNext (.sDebounce raw) s).db.dot, (tickNext (.sDebounce raw) s).db.dash,
    (tickNext (.sDebounce raw) s).cnt, ?_⟩
  rw [h]
  rfl

theorem sampled_withPaddles {raw raw' : Lines Bool} (h : raw = { raw' with dot := raw.dot, dash := raw.dash })
    (s : State) : ∃ pd ps cnt, sampled raw s = withPaddles pd ps cnt (sampled raw' s) := by
  obtain ⟨pd, ps, cnt, hdebounce⟩ := tickNext_sDebounce_withPaddles h (tickNext .tCount s)
  refine ⟨pd, ps, cnt, ?_⟩
  rw [sampled, hdebounce, tickNext_sEdge_withPaddles, tickNext_sQdec_withPaddles, tickNext_sRitlong_withPaddles,
    ← sampled]

/-- Settles O57: the two states agree but for the paddles and the counts after sampling (`sampled_withPaddles`), and the
key step and the sequencing in `MEM_SEND_TX` do the same on both, with the same paddles and counts put in. -/
theorem paddlesHaveNoEffectInPlayback : Obligations.PaddlesHaveNoEffectInPlayback := by
  intro s t u raw raw' hmode hraw ht hu
  obtain ⟨pd, ps, cnt, hsampled⟩ := sampled_withPaddles hraw s
  have hsend : (clearEvent (sampled raw' s)).mode = .memSendTx := (sampled_frame raw' s).mode.trans hmode
  have hclear : clearEvent (withPaddles pd ps cnt (sampled raw' s)) =
    withPaddles pd ps cnt (clearEvent (sampled raw' s)) := rfl
  rw [tickStep_eq] at ht hu
  cases ht
  cases hu
  rw [hsampled, hclear, keyed_withPaddles hsend, sequenced_withPaddles ((keyed_mode hsend).trans hsend)]
  rfl

end Sys2Proof.Machine

/-!
SUPPORT and the proofs of O40 and O41. The invariants of 10_state.md R51 in three parts: what concerns the registers,
the key engine by itself, and the key engine in its mode. Each part is kept by each operation; the last is suspended
between the key step and `Q.AUTO`.
-/

namespace Sys2Proof.Machine

open Sys2Proof.Safety

/-! ## The parts of the invariants -/

/-- The bounds of the counts (R21, R22, R24, R27, R38). -/
structure Counts (p : Config.Params) (presc : Nat) (tcount ritT0 beaconT0 : Word) (cnt : Lines Nat) : Prop where
  presc : presc < p.tickDiv
  tcount : tcount.toNat < 2 ^ p.tcountW
  ritT0 : ritT0.toNat < 2 ^ p.tcountW
  beaconT0 : beaconT0.toNat < 2 ^ p.tcountW
  cnt : ∀ i : Line, cnt.get i < p.debounceN

/-- The speed is legal and the durations are those of the speed (item 1). -/
structure SpeedOk (p : Config.Params) (speed : BitVec 5) (dotTime dashTime : BitVec 16) : Prop where
  low : p.keyMinSpeed ≤ speed.toNat
  high : speed.toNat ≤ p.keyMaxSpeed
  dot : dotTime.toNat = p.dotNum / speed.toNat
  dash : dashTime.toNat = 3 * dotTime.toNat

/-- The key engine by itself (items 2 to 6). -/
structure Engine (p : Config.Params) (k : KeyState) : Prop where
  lastNone : k.phase = .idle ↔ k.last = .none
  timerIdle : k.phase = .idle → k.timer = 0
  timerLow : k.phase ≠ .idle → 1 ≤ k.timer.toNat
  timerHigh : k.timer.toNat ≤ 3 * (p.dotNum / p.keyMinSpeed)
  elementDown : k.phase = .element → k.keyDown = true
  dotLatch : k.dot = true → k.last = .dash ∧ (k.phase = .element ∨ k.phase = .gap)
  dashLatch : k.dash = true → k.last = .dot ∧ (k.phase = .element ∨ k.phase = .gap)
  timeoutIdle : k.timeout = true → k.phase = .idle

/-- The key engine and the playback in their mode (items 4, 7 to 9), but for `DEFAULT`. -/
structure Conduct (mode : Mode) (k : KeyState) (pb : Playback) : Prop where
  downElement : (k.mode = .iambic ∨ mode = .memSendTx) → k.keyDown = true → k.phase = .element
  straightIdle : k.mode = .straight → mode ≠ .memSendTx → k.phase = .idle
  otherModesRest : mode ∉ [Mode.default, .keying, .adjustCs, .memEnter, .memSendTx] →
    k.phase = .idle ∧ k.keyDown = false ∧ k.timer = 0 ∧ k.dot = false ∧ k.dash = false ∧ k.timeout = false
  playing : pb.active = true → mode = .memSendTx ∧ 2 ≤ pb.pat.toNat
  notPlaying : mode = .memSendTx → pb.active = false → k.phase = .idle
  feedDot : pb.active = true → k.dot = true → pb.rem ≠ 0 ∧ pb.pat.getLsbD (pb.rem.toNat - 1) = false
  feedDash : pb.active = true → k.dash = true → pb.rem ≠ 0 ∧ pb.pat.getLsbD (pb.rem.toNat - 1) = true

/-- In `DEFAULT` the key engine is at rest (item 7). -/
def DefaultRests (mode : Mode) (k : KeyState) : Prop := mode = .default → k.phase = .idle ∧ k.keyDown = false

/-- The part of the invariants that every tick sub-operation keeps. -/
structure Sound (s : State) : Prop where
  cfg : s.cfg.Valid
  counts : Counts s.cfg s.presc s.tcount s.ritT0 s.beaconT0 s.cnt
  speed : SpeedOk s.cfg s.key.speed s.key.dotTime s.key.dashTime
  engine : Engine s.cfg s.key
  memTxIndex : s.memTxIndex.toNat < s.cfg.memSlots
  nv : s.nv.wf = true

/-- The invariants, part by part. -/
theorem inv_iff (s : State) : Inv s ↔
    Sound s ∧ Conduct s.mode s.key s.pb ∧ DefaultRests s.mode s.key ∧ s.blink = blinkOf s.cfg s.tcount ∧
      s.locals = .idle := by
  constructor
  · intro h
    exact ⟨⟨h.cfg, ⟨h.presc, h.tcount, h.ritT0, h.beaconT0, h.cnt⟩, ⟨h.speedLow, h.speedHigh, h.dotTime, h.dashTime⟩,
      ⟨h.lastNone, h.timerIdle, h.timerLow, h.timerHigh, h.elementDown, h.dotLatch, h.dashLatch, h.timeoutIdle⟩,
      h.memTxIndex, h.nv⟩,
      ⟨h.downElement, h.straightIdle, h.otherModesRest, h.playing, h.notPlaying, h.feedDot, h.feedDash⟩,
      h.defaultRest, h.blink, h.locals⟩
  · rintro ⟨⟨cfg, counts, speed, engine, memTxIndex, nv⟩, conduct, rests, blink, locals⟩
    exact {
      cfg, memTxIndex, nv, blink, locals
      presc := counts.presc, tcount := counts.tcount, ritT0 := counts.ritT0, beaconT0 := counts.beaconT0
      cnt := counts.cnt
      speedLow := speed.low, speedHigh := speed.high, dotTime := speed.dot, dashTime := speed.dash
      lastNone := engine.lastNone, timerIdle := engine.timerIdle, timerLow := engine.timerLow
      timerHigh := engine.timerHigh, elementDown := engine.elementDown
      oneLatch := fun ⟨hdot, hdash⟩ => by
        have hlast := (engine.dotLatch hdot).1
        rw [(engine.dashLatch hdash).1] at hlast
        cases hlast
      dotLatch := engine.dotLatch, dashLatch := engine.dashLatch, timeoutIdle := engine.timeoutIdle
      downElement := conduct.downElement, straightIdle := conduct.straightIdle, defaultRest := rests
      otherModesRest := conduct.otherModesRest, playing := conduct.playing, notPlaying := conduct.notPlaying
      feedDot := conduct.feedDot, feedDash := conduct.feedDash }

/-! ## The durations of a legal speed -/

section
variable {p : Config.Params} {v : BitVec 5}

/-- The durations fit their 16 bits (R152). -/
theorem speedOk_of_legal (hp : p.Valid) (hlow : p.keyMinSpeed ≤ v.toNat) (hhigh : v.toNat ≤ p.keyMaxSpeed) :
    SpeedOk p v (BitVec.ofNat 16 (p.dotNum / v.toNat)) (BitVec.ofNat 16 (3 * (p.dotNum / v.toNat))) := by
  have hle : p.dotNum / v.toNat ≤ p.dotNum / p.keyMinSpeed := Nat.div_le_div_left hlow hp.keyMinSpeed
  have hfit := hp.dotNumHigh
  refine ⟨hlow, hhigh, ?_, ?_⟩
  · exact BitVec.toNat_ofNat .. |>.trans (Nat.mod_eq_of_lt (by omega))
  · rw [BitVec.toNat_ofNat, BitVec.toNat_ofNat, Nat.mod_eq_of_lt (by omega), Nat.mod_eq_of_lt (by omega)]

theorem defaultSpeed_toNat (hp : p.Valid) : (BitVec.ofNat 5 p.defaultSpeed).toNat = p.defaultSpeed := by
  have := hp.defaultSpeedHigh
  have := hp.keyMaxSpeedHigh
  rw [BitVec.toNat_ofNat, Nat.mod_eq_of_lt (by omega)]

/-- What is loaded from storage is legal (46_host_commands.md R269). -/
theorem storedSpeed_legal (hp : p.Valid) (b : Byte) :
    p.keyMinSpeed ≤ (storedSpeed p b).toNat ∧ (storedSpeed p b).toNat ≤ p.keyMaxSpeed := by
  unfold storedSpeed
  split
  case isTrue h =>
    have := hp.keyMaxSpeedHigh
    rwa [BitVec.toNat_setWidth, Nat.mod_eq_of_lt (by omega)]
  case isFalse =>
    rw [defaultSpeed_toNat hp]
    exact ⟨hp.defaultSpeedLow, hp.defaultSpeedHigh⟩

variable {dotTime dashTime : BitVec 16}

theorem SpeedOk.dotTime_pos (h : SpeedOk p v dotTime dashTime) (hp : p.Valid) : 1 ≤ dotTime.toNat := by
  have hv : 1 ≤ v.toNat := hp.keyMinSpeed.trans h.low
  rw [h.dot, Nat.one_le_div_iff hv]
  exact h.high.trans hp.dotNumLow

theorem SpeedOk.dashTime_le (h : SpeedOk p v dotTime dashTime) (hp : p.Valid) :
    dashTime.toNat ≤ 3 * (p.dotNum / p.keyMinSpeed) := by
  rw [h.dash, h.dot]
  exact Nat.mul_le_mul_left 3 (Nat.div_le_div_left h.low hp.keyMinSpeed)

end

/-! ## The key engine at rest -/

theorem engine_atRest (p : Config.Params) (k : KeyState) : Engine p (atRest k) := by
  constructor <;> simp [atRest]

/-- At rest every mode has its key engine, if a playback is one of `MEM_SEND_TX`. -/
theorem conduct_atRest {mode : Mode} {pb : Playback} (k : KeyState)
    (playing : pb.active = true → mode = .memSendTx ∧ 2 ≤ pb.pat.toNat) : Conduct mode (atRest k) pb where
  downElement _ hdown := by cases hdown
  straightIdle _ _ := rfl
  otherModesRest _ := ⟨rfl, rfl, rfl, rfl, rfl, rfl⟩
  playing := playing
  notPlaying _ _ := rfl
  feedDot _ hdot := by cases hdot
  feedDash _ hdash := by cases hdash

/-- Nothing is remembered at rest (item 5). -/
theorem Engine.latches_of_idle {p : Config.Params} {k : KeyState} (h : Engine p k) (hphase : k.phase = .idle) :
    k.dot = false ∧ k.dash = false := by
  refine ⟨Bool.eq_false_iff.mpr fun hdot => ?_, Bool.eq_false_iff.mpr fun hdash => ?_⟩
  · have hrunning := (h.dotLatch hdot).2
    simp [hphase] at hrunning
  · have hrunning := (h.dashLatch hdash).2
    simp [hphase] at hrunning

/-- The invariants but for the model's own `blink` and `locals`, which the tick step sets last. -/
structure Settled (s : State) : Prop where
  sound : Sound s
  conduct : Conduct s.mode s.key s.pb
  rests : DefaultRests s.mode s.key

section
variable {s : State}

theorem Sound.withSpeed (h : Sound s) {v : BitVec 5} (hlow : s.cfg.keyMinSpeed ≤ v.toNat)
    (hhigh : v.toNat ≤ s.cfg.keyMaxSpeed) : Sound (withSpeed v s) where
  cfg := h.cfg
  counts := h.counts
  speed := speedOk_of_legal h.cfg hlow hhigh
  engine := ⟨h.engine.lastNone, h.engine.timerIdle, h.engine.timerLow, h.engine.timerHigh, h.engine.elementDown,
    h.engine.dotLatch, h.engine.dashLatch, h.engine.timeoutIdle⟩
  memTxIndex := h.memTxIndex
  nv := h.nv

theorem Sound.loaded (h : Sound s) : Sound (loaded s) := by
  obtain ⟨hlow, hhigh⟩ := storedSpeed_legal h.cfg (s.nv.read s.cfg.nvSpeedAddr)
  obtain ⟨cfg, counts, speed, engine, memTxIndex, nv⟩ := h.withSpeed hlow hhigh
  exact ⟨cfg, counts, speed, engine, memTxIndex, nv⟩

theorem Sound.saved (h : Sound s) : Sound (saved s) :=
  ⟨h.cfg, h.counts, h.speed, h.engine, h.memTxIndex, Memory.write_wf h.nv _ _⟩

/-- Whatever mode is entered, and from where. -/
theorem Sound.entered (h : Sound s) (m : Mode) : Settled (entered m s) where
  sound := {
    cfg := h.cfg
    counts := {
      presc := h.counts.presc, tcount := h.counts.tcount, ritT0 := h.counts.ritT0, cnt := h.counts.cnt
      beaconT0 := by
        unfold Safety.entered
        dsimp only
        split
        · exact h.counts.tcount
        · exact h.counts.beaconT0 }
    speed := h.speed
    engine := engine_atRest _ _
    memTxIndex := h.memTxIndex
    nv := h.nv }
  conduct := conduct_atRest _ fun hactive => by cases hactive
  rests _ := ⟨rfl, rfl⟩

end

/-! ## Commands -/

theorem inv_iff_settled (s : State) :
    Inv s ↔ Settled s ∧ s.blink = blinkOf s.cfg s.tcount ∧ s.locals = .idle := by
  rw [inv_iff]
  exact ⟨fun ⟨hsound, hconduct, hrests, hown⟩ => ⟨⟨hsound, hconduct, hrests⟩, hown⟩,
    fun ⟨⟨hsound, hconduct, hrests⟩, hown⟩ => ⟨hsound, hconduct, hrests, hown⟩⟩

section
variable {s u : State}

/-- What a performed command leaves, rule by rule. -/
theorem Settled.performed {i : Instr} (h : Settled s) (effect : Performed s i u) : Settled u := by
  obtain ⟨hsound, hconduct, hrests⟩ := h
  cases effect with
  | nop => exact ⟨hsound, hconduct, hrests⟩
  | initDone mode => exact hsound.loaded.entered _
  | select mode tag => exact hsound.entered _
  | confirm mode move => exact hsound.entered _
  | confirmSpeed mode => exact hsound.saved.loaded.entered _
  | cancel legal mode => exact hsound.entered _
  | cancelSpeed mode => exact hsound.loaded.entered _
  | memDone mode idle => exact hsound.entered _
  | @fault code mode =>
    have hcode : Sound { s with errcode := code } :=
      ⟨hsound.cfg, hsound.counts, hsound.speed, hsound.engine, hsound.memTxIndex, hsound.nv⟩
    exact hcode.entered _
  | setSpeed mode low high =>
    refine ⟨hsound.withSpeed low high, ?_, hrests⟩
    exact ⟨hconduct.downElement, hconduct.straightIdle, hconduct.otherModesRest, hconduct.playing,
      hconduct.notPlaying, hconduct.feedDot, hconduct.feedDash⟩
  | @setKeymode k mode =>
    refine ⟨⟨hsound.cfg, hsound.counts, hsound.speed, ?_, hsound.memTxIndex, hsound.nv⟩, ?_, fun _ => ⟨rfl, rfl⟩⟩
    · exact engine_atRest s.cfg { s.key with mode := keyModeOf k }
    · exact conduct_atRest { s.key with mode := keyModeOf k } hconduct.playing
  | setBeacon mode =>
    refine ⟨⟨hsound.cfg, ?_, hsound.speed, hsound.engine, hsound.memTxIndex, hsound.nv⟩, hconduct, hrests⟩
    exact ⟨hsound.counts.presc, hsound.counts.tcount, hsound.counts.ritT0, hsound.counts.tcount, hsound.counts.cnt⟩
  | setMemidx sending mode slot =>
    exact ⟨⟨hsound.cfg, hsound.counts, hsound.speed, hsound.engine, slot, hsound.nv⟩, hconduct, hrests⟩
  | @play c mode idle =>
    by_cases hpattern : 2 ≤ (patternOf s.cfg c).toNat
    · rw [loadPattern_of_le hpattern]
      have hphase : s.key.phase = .idle := hconduct.notPlaying mode idle
      obtain ⟨hdot, hdash⟩ := hsound.engine.latches_of_idle hphase
      refine ⟨⟨hsound.cfg, hsound.counts, hsound.speed, hsound.engine, hsound.memTxIndex, hsound.nv⟩, ?_, hrests⟩
      exact ⟨hconduct.downElement, hconduct.straightIdle, hconduct.otherModesRest, fun _ => ⟨mode, hpattern⟩,
        fun _ _ => hphase, fun _ hlatch => absurd hlatch (by simp [hdot]), fun _ hlatch => absurd hlatch (by simp [hdash])⟩
    · rw [loadPattern_of_lt (not_le.mp hpattern)]
      exact ⟨⟨hsound.cfg, hsound.counts, hsound.speed, hsound.engine, hsound.memTxIndex, hsound.nv⟩, hconduct,
        hrests⟩
  | drainEnc =>
    exact ⟨⟨hsound.cfg, hsound.counts, hsound.speed, hsound.engine, hsound.memTxIndex, hsound.nv⟩, hconduct, hrests⟩
  | ack =>
    exact ⟨⟨hsound.cfg, hsound.counts, hsound.speed, hsound.engine, hsound.memTxIndex, hsound.nv⟩, hconduct, hrests⟩

theorem Performed.frame {i : Instr} (effect : Performed s i u) :
    u.cfg = s.cfg ∧ u.tcount = s.tcount ∧ u.blink = s.blink ∧ u.locals = s.locals := by
  cases effect
  case play => exact ⟨loadPattern_cfg _ s, loadPattern_tcount _ s, loadPattern_blink _ s, loadPattern_locals _ s⟩
  all_goals exact ⟨rfl, rfl, rfl, rfl⟩

theorem inv_rejected (h : Inv s) : Inv (rejected s) := by
  obtain ⟨⟨hsound, hconduct, hrests⟩, hblink, hlocals⟩ := (inv_iff_settled s).mp h
  exact (inv_iff_settled _).mpr ⟨⟨⟨hsound.cfg, hsound.counts, hsound.speed, hsound.engine, hsound.memTxIndex, hsound.nv⟩,
    hconduct, hrests⟩, hblink, hlocals⟩

theorem inv_answered {i : Instr} (h : Inv s) (effect : Performed s i u) (rsp : BitVec 16) : Inv (answered rsp u) := by
  obtain ⟨hsettled, hblink, hlocals⟩ := (inv_iff_settled s).mp h
  obtain ⟨hsound, hconduct, hrests⟩ := hsettled.performed effect
  obtain ⟨hcfg, htcount, hublink, hulocals⟩ := effect.frame
  refine (inv_iff_settled _).mpr ⟨⟨⟨hsound.cfg, hsound.counts, hsound.speed, hsound.engine, hsound.memTxIndex,
    hsound.nv⟩, hconduct, hrests⟩, ?_, hulocals.trans hlocals⟩
  show u.blink = blinkOf u.cfg u.tcount
  rw [hublink, hcfg, htcount, hblink]

/-- A command step keeps the invariants. -/
theorem inv_commandStep (h : Inv s) {w : BitVec 16} (hstep : commandStep w s = .next u) : Inv u := by
  cases hdec : decode w with
  | error e =>
    rw [commandStep_of_error hdec] at hstep
    cases hstep
    exact inv_rejected h
  | ok i =>
    rw [commandStep_of_decode hdec] at hstep
    cases behaves_of_exec (isCommand_of_decode hdec) hstep with
    | rejected no => exact inv_rejected h
    | performed rsp yes effect => exact inv_answered h effect rsp

end

/-! ## The sampler -/

theorem tickCount_lt (w n : Nat) : (tickCount w n).toNat < 2 ^ w := by
  rw [tickCount, BitVec.toNat_ofNat]
  exact (Nat.mod_le _ _).trans_lt (Nat.mod_lt _ (Nat.two_pow_pos w))

theorem debounceLine_cnt_lt {n : Nat} (hn : 1 ≤ n) (raw db : Bool) {cnt : Nat} (h : cnt < n) :
    (debounceLine n raw db cnt).2 < n := by
  by_cases hsame : raw = db
  · rw [debounceLine_same hsame]
    exact hn
  · by_cases hflip : cnt + 1 = n
    · rw [debounceLine_flips hsame hflip]
      exact hn
    · rw [debounceLine_counts hsame hflip]
      exact lt_of_le_of_ne h hflip

section
variable {s : State}

theorem Sound.tCount (h : Sound s) : Sound (tickNext .tCount s) :=
  ⟨h.cfg, ⟨h.counts.presc, tickCount_lt _ _, h.counts.ritT0, h.counts.beaconT0, h.counts.cnt⟩, h.speed, h.engine,
    h.memTxIndex, h.nv⟩

theorem Sound.sDebounce (h : Sound s) (raw : Lines Bool) : Sound (tickNext (.sDebounce raw) s) := by
  refine ⟨h.cfg, ⟨h.counts.presc, h.counts.tcount, h.counts.ritT0, h.counts.beaconT0, fun i => ?_⟩, h.speed, h.engine,
    h.memTxIndex, h.nv⟩
  have hline := debounceLine_cnt_lt h.cfg.debounceN (raw.get i) (s.db.get i) (h.counts.cnt i)
  rwa [← Lines.get_tabulate (fun i => (debounceLine s.cfg.debounceN (raw.get i) (s.db.get i) (s.cnt.get i)).2) i]
    at hline

theorem Sound.sEdge (h : Sound s) : Sound (tickNext .sEdge s) := by
  rw [tickNext_of_exec (edgeRaisesPressFlags s)]
  exact ⟨h.cfg, h.counts, h.speed, h.engine, h.memTxIndex, h.nv⟩

theorem Sound.sQdec (h : Sound s) : Sound (tickNext .sQdec s) :=
  ⟨h.cfg, h.counts, h.speed, h.engine, h.memTxIndex, h.nv⟩

theorem Sound.sRitlong (h : Sound s) : Sound (tickNext .sRitlong s) := by
  rw [tickNext_of_exec (ritLongRaisedOncePerPress s)]
  refine ⟨h.cfg, ⟨h.counts.presc, h.counts.tcount, ?_, h.counts.beaconT0, h.counts.cnt⟩, h.speed, h.engine,
    h.memTxIndex, h.nv⟩
  dsimp only
  split
  · exact h.counts.tcount
  · exact h.counts.ritT0

theorem Sound.sampled (h : Sound s) (raw : Lines Bool) : Sound (sampled raw s) :=
  (h.tCount.sDebounce raw).sEdge.sQdec.sRitlong

theorem Settled.sampled (h : Settled s) (raw : Lines Bool) : Settled (clearEvent (sampled raw s)) := by
  have frame := sampled_frame raw s
  have hsound := h.sound.sampled raw
  refine ⟨⟨hsound.cfg, hsound.counts, hsound.speed, hsound.engine, hsound.memTxIndex, hsound.nv⟩, ?_, ?_⟩
  · rw [clearEvent_mode, clearEvent_key, clearEvent_pb, frame.mode, frame.key, frame.pb]
    exact h.conduct
  · rw [clearEvent_mode, clearEvent_key, frame.mode, frame.key]
    exact h.rests

end

/-! ## The key step -/

section
variable {pd ps : Bool} {s t : State}

theorem timer_countDown_toNat {k : KeyState} (h : 1 ≤ k.timer.toNat) :
    (k.timer - 1).toNat = k.timer.toNat - 1 := by
  bv_omega

/-- The durations are legal timer values. -/
theorem Sound.durationOf_bounds (h : Sound s) (x : Element) :
    1 ≤ (durationOf s.key x).toNat ∧ (durationOf s.key x).toNat ≤ 3 * (s.cfg.dotNum / s.cfg.keyMinSpeed) := by
  have hpos := h.speed.dotTime_pos h.cfg
  have hdash := h.speed.dash
  have hhigh := h.speed.dashTime_le h.cfg
  cases x <;> simp only [durationOf] <;> omega

theorem Engine.countDown {p : Config.Params} {k : KeyState} (h : Engine p k) (hphase : k.phase ≠ .idle)
    (htimer : k.timer.toNat ≠ 1) : Engine p { k with timer := k.timer - 1 } := by
  have hlow := h.timerLow hphase
  have hnext := timer_countDown_toNat hlow
  have hhigh := h.timerHigh
  refine ⟨h.lastNone, fun hidle => absurd hidle hphase, fun _ => ?_, ?_, h.elementDown, h.dotLatch, h.dashLatch,
    h.timeoutIdle⟩
  · show 1 ≤ (k.timer - 1).toNat
    omega
  · show (k.timer - 1).toNat ≤ _
    omega

theorem Engine.latchOpposite (h : Engine s.cfg s.key) (hphase : s.key.phase = .element) (pd ps : Bool) :
    Engine s.cfg (latchOpposite pd ps s).key := by
  refine ⟨h.lastNone, h.timerIdle, h.timerLow, h.timerHigh, h.elementDown, fun hdot => ?_, fun hdash => ?_,
    h.timeoutIdle⟩
  · simp only [latchOpposite_key, Bool.or_eq_true, Bool.and_eq_true, decide_eq_true_eq] at hdot ⊢
    obtain hold | ⟨hlast, _⟩ := hdot
    · exact h.dotLatch hold
    · exact ⟨hlast, .inl hphase⟩
  · simp only [latchOpposite_key, Bool.or_eq_true, Bool.and_eq_true, decide_eq_true_eq] at hdash ⊢
    obtain hold | ⟨hlast, _⟩ := hdash
    · exact h.dashLatch hold
    · exact ⟨hlast, .inl hphase⟩

/-- A step that starts nothing finds nothing remembered (R156). -/
theorem latches_of_chosen_none (h : chosen pd ps s = none) :
    pd = false ∧ ps = false ∧ s.key.dot = false ∧ s.key.dash = false := by
  rw [← chooseElement_eq_chosen, chooseElement_eq_none_iff] at h
  simp only [Bool.or_eq_false_iff] at h
  tauto

theorem Engine.last_ne_none {p : Config.Params} {k : KeyState} (h : Engine p k) (hphase : k.phase ≠ .idle) :
    k.last ≠ .none :=
  mt h.lastNone.mpr hphase

/-- The key engine by itself, move by move. -/
theorem Sound.iambicMove (h : Sound s) (move : IambicMove pd ps s t) : Engine t.cfg t.key := by
  have engine := h.engine
  cases move with
  | elementRuns phase timer => exact (engine.latchOpposite phase pd ps).countDown (by simp [phase]) timer
  | elementEnds phase timer =>
    obtain ⟨hlow, hhigh⟩ := h.durationOf_bounds .dot
    have hrunning : s.key.phase ≠ .idle := by simp [phase]
    have latched := engine.latchOpposite phase pd ps
    exact {
      lastNone := iff_of_false (by simp) (engine.last_ne_none hrunning)
      timerIdle := fun hidle => by cases hidle
      timerLow := fun _ => hlow
      timerHigh := hhigh
      elementDown := fun helement => by cases helement
      dotLatch := fun hdot => ⟨(latched.dotLatch hdot).1, .inr rfl⟩
      dashLatch := fun hdash => ⟨(latched.dashLatch hdash).1, .inr rfl⟩
      timeoutIdle := fun htimeout => absurd (engine.timeoutIdle htimeout) hrunning }
  | gapRuns phase timer => exact engine.countDown (by simp [phase]) timer
  | gapExpires phase timer none =>
    obtain ⟨hlow, hhigh⟩ := h.durationOf_bounds .dash
    obtain ⟨_, _, hdot, hdash⟩ := latches_of_chosen_none none
    have hrunning : s.key.phase ≠ .idle := by simp [phase]
    exact {
      lastNone := iff_of_false (by simp) (engine.last_ne_none hrunning)
      timerIdle := fun hidle => by cases hidle
      timerLow := fun _ => hlow
      timerHigh := hhigh
      elementDown := fun helement => by cases helement
      dotLatch := fun hlatch => absurd hlatch (by simp [hdot])
      dashLatch := fun hlatch => absurd hlatch (by simp [hdash])
      timeoutIdle := fun htimeout => absurd (engine.timeoutIdle htimeout) hrunning }
  | waitRuns phase timer none => exact engine.countDown (by simp [phase]) timer
  | waitExpires phase timer none =>
    obtain ⟨_, _, hdot, hdash⟩ := latches_of_chosen_none none
    exact {
      lastNone := iff_of_true rfl rfl
      timerIdle := fun _ => countDown_timer_eq_zero_iff.mpr timer
      timerLow := fun hrunning => absurd rfl hrunning
      timerHigh := by
        rw [emit_key, countDown_timer_eq_zero_iff.mpr timer]
        exact Nat.zero_le _
      elementDown := fun helement => by cases helement
      dotLatch := fun hlatch => absurd hlatch (by simp [hdot])
      dashLatch := fun hlatch => absurd hlatch (by simp [hdash])
      timeoutIdle := fun _ => rfl }
  | rests phase none => exact engine
  | @starts x phase wanted =>
    obtain ⟨hlow, hhigh⟩ := h.durationOf_bounds x
    exact {
      lastNone := iff_of_false (by simp) (by cases x <;> simp [lastOf])
      timerIdle := fun hidle => by cases hidle
      timerLow := fun _ => hlow
      timerHigh := hhigh
      elementDown := fun _ => rfl
      dotLatch := fun hdot => ⟨by cases x <;> simp_all [lastOf], .inl rfl⟩
      dashLatch := fun hdash => ⟨by cases x <;> simp_all [lastOf], .inl rfl⟩
      timeoutIdle := fun htimeout => by cases htimeout }

/-- The part that every sub-operation keeps, over an iambic key step on any paddles. -/
theorem Sound.iambicNext (h : Sound s) (pd ps : Bool) : Sound (iambicNext pd ps s) := by
  have engine := h.iambicMove (iambicNext_move pd ps s)
  have settings := iambicNext_settings pd ps s
  rw [iambicNext_frame] at engine ⊢
  simp only [KeyState.settings, Prod.mk.injEq] at settings
  obtain ⟨_, hspeed, hdot, hdash⟩ := settings
  refine ⟨h.cfg, h.counts, ?_, engine, h.memTxIndex, h.nv⟩
  show SpeedOk s.cfg (Machine.iambicNext pd ps s).key.speed (Machine.iambicNext pd ps s).key.dotTime
    (Machine.iambicNext pd ps s).key.dashTime
  rw [hspeed, hdot, hdash]
  exact h.speed

/-- With the iambic keyer the key is down in an element only, move by move. -/
theorem IambicMove.downElement (move : IambicMove pd ps s t)
    (h : s.key.keyDown = true → s.key.phase = .element) : t.key.keyDown = true → t.key.phase = .element := by
  intro hdown
  cases move with
  | elementRuns phase timer => exact phase
  | elementEnds phase timer => cases hdown
  | gapRuns phase timer => exact h hdown
  | gapExpires phase timer none => simp [h hdown] at phase
  | waitRuns phase timer none => exact h hdown
  | waitExpires phase timer none => simp [h hdown] at phase
  | rests phase none => exact h hdown
  | starts phase wanted => rfl

/-- From rest a key step starts an element, or nothing happens. -/
theorem IambicMove.of_idle (move : IambicMove pd ps s t) (hphase : s.key.phase = .idle) :
    t = s ∨ t.ev ∈ [Event.start, .dot, .dash] := by
  cases move with
  | rests phase none => exact .inl rfl
  | @starts x phase wanted => exact .inr (by cases x <;> simp [eventOf])
  | elementRuns phase | elementEnds phase | gapRuns phase | gapExpires phase | waitRuns phase | waitExpires phase =>
    simp [hphase] at phase

/-! ### In each mode -/

/-- The invariants after the key step: in `DEFAULT` the key engine is at rest, or has the event on which `Q.AUTO` moves
to `KEYING`. -/
structure Keyed (s : State) : Prop where
  sound : Sound s
  conduct : Conduct s.mode s.key s.pb
  awaits : s.mode = .default → (s.key.phase = .idle ∧ s.key.keyDown = false) ∨ s.ev ∈ [Event.start, .dot, .dash]

/-- `K.STRAIGHT` writes `key.key_down` and `ev`, and a key that goes down emits `START`. -/
theorem tickNext_kStraight (c : Bool) (s : State) :
    ∃ down e, tickNext (.kStraight c) s = { s with ev := e, key := { s.key with keyDown := down } } ∧
      (down = true → s.key.keyDown = true ∨ e = .start) := by
  obtain ⟨hclose, hopen, hsame⟩ := straightKeyFollowsTheContact c s
  by_cases hc : c = s.key.keyDown
  · exact ⟨s.key.keyDown, s.ev, tickNext_of_exec (hsame hc), .inl⟩
  · cases c with
    | true =>
      have hup : s.key.keyDown = false := by simpa using Ne.symm hc
      exact ⟨true, .start, tickNext_of_exec (hclose rfl hup), fun _ => .inr rfl⟩
    | false =>
      have hdown : s.key.keyDown = true := by simpa using Ne.symm hc
      exact ⟨false, .eoe, tickNext_of_exec (hopen rfl hdown), fun h => by cases h⟩

theorem Settled.kStraight (h : Settled s) (hmode : s.mode ∈ [Mode.default, .keying, .adjustCs, .memEnter])
    (hkey : s.key.mode = .straight) (c : Bool) : Keyed (tickNext (.kStraight c) s) := by
  obtain ⟨down, e, hnext, hdown⟩ := tickNext_kStraight c s
  obtain ⟨hsound, hconduct, hrests⟩ := h
  have engine := hsound.engine
  have hsend : s.mode ≠ .memSendTx := by
    rintro hsend
    simp [hsend] at hmode
  have hidle := hconduct.straightIdle hkey hsend
  rw [hnext]
  refine ⟨⟨hsound.cfg, hsound.counts, hsound.speed, ?_, hsound.memTxIndex, hsound.nv⟩, ?_, fun hdefault => ?_⟩
  · exact ⟨engine.lastNone, engine.timerIdle, engine.timerLow, engine.timerHigh,
      fun helement => by simp [hidle] at helement, engine.dotLatch, engine.dashLatch, engine.timeoutIdle⟩
  · refine ⟨fun hor => ?_, hconduct.straightIdle, fun hother => ?_, hconduct.playing, hconduct.notPlaying,
      hconduct.feedDot, hconduct.feedDash⟩
    · exact absurd hor (by simp [hkey, hsend])
    · simp only [List.mem_cons, List.not_mem_nil, or_false] at hmode hother
      tauto
  · obtain ⟨_, hup⟩ := hrests hdefault
    cases down with
    | false => exact .inl ⟨hidle, rfl⟩
    | true =>
      have hstart : e = .start := (hdown rfl).resolve_left (by simp [hup])
      exact .inr (by simp [hstart])

theorem Settled.kIambic (h : Settled s) (hmode : s.mode ∈ [Mode.default, .keying, .adjustCs, .memEnter])
    (hkey : s.key.mode = .iambic) (pd ps : Bool) : Keyed (iambicNext pd ps s) := by
  obtain ⟨hsound, hconduct, hrests⟩ := h
  have hsend : s.mode ≠ .memSendTx := by
    rintro hsend
    simp [hsend] at hmode
  have hsilent : ¬ s.pb.active = true := fun hactive => hsend (hconduct.playing hactive).1
  have move := iambicNext_move pd ps s
  have hdown := move.downElement (hconduct.downElement (.inl hkey))
  have hsettings := iambicNext_settings pd ps s
  refine ⟨hsound.iambicNext pd ps, ?_, fun hdefault => ?_⟩
  · rw [iambicNext_frame]
    refine ⟨fun _ => hdown, fun hstraight => ?_, fun hother => ?_, fun hactive => absurd hactive hsilent,
      fun hmem => absurd hmem hsend, fun hactive => absurd hactive hsilent, fun hactive => absurd hactive hsilent⟩
    · have hkept : (iambicNext pd ps s).key.mode = s.key.mode := congrArg Prod.fst hsettings
      have : (iambicNext pd ps s).key.mode = .straight := hstraight
      simp [hkept, hkey] at this
    · have : s.mode ∉ [Mode.default, .keying, .adjustCs, .memEnter, .memSendTx] := hother
      simp only [List.mem_cons, List.not_mem_nil, or_false] at hmode this
      tauto
  · rw [iambicNext_mode] at hdefault
    obtain ⟨hidle, hup⟩ := hrests hdefault
    obtain hsame | hev := move.of_idle hidle
    · rw [hsame]
      exact .inl ⟨hidle, hup⟩
    · exact .inr hev

/-! ### In playback -/

/-- The element that the feeder shows (45_morse_codec_playback.md R236). -/
def shown (pb : Playback) : Option Element :=
  if pb.active = true ∧ pb.rem ≠ 0 then some (elementOfBit (pb.pat.getLsbD (pb.rem.toNat - 1))) else none

theorem virtualPaddles_eq_shown (s : State) :
    virtualPaddles s = (decide (shown s.pb = some .dot), decide (shown s.pb = some .dash)) := by
  unfold virtualPaddles shown
  split
  · cases s.pb.pat.getLsbD (s.pb.rem.toNat - 1) <;> rfl
  · rfl

theorem shown_eq_dot_iff {pb : Playback} (hactive : pb.active = true) :
    shown pb = some .dot ↔ pb.rem ≠ 0 ∧ pb.pat.getLsbD (pb.rem.toNat - 1) = false := by
  unfold shown elementOfBit
  by_cases hrem : pb.rem = 0 <;> cases pb.pat.getLsbD (pb.rem.toNat - 1) <;> simp [hactive, hrem]

theorem shown_eq_dash_iff {pb : Playback} (hactive : pb.active = true) :
    shown pb = some .dash ↔ pb.rem ≠ 0 ∧ pb.pat.getLsbD (pb.rem.toNat - 1) = true := by
  unfold shown elementOfBit
  by_cases hrem : pb.rem = 0 <;> cases pb.pat.getLsbD (pb.rem.toNat - 1) <;> simp [hactive, hrem]

theorem shown_of_inactive {pb : Playback} (h : pb.active = false) : shown pb = none := if_neg (by simp [h])

/-- What is remembered in playback is what the feeder shows. -/
structure LatchesShown (k : KeyState) (pb : Playback) : Prop where
  dot : k.dot = true → shown pb = some .dot
  dash : k.dash = true → shown pb = some .dash

/-- In playback an element is started only if it is shown. -/
theorem LatchesShown.chosen_eq (h : LatchesShown s.key s.pb) {x : Element}
    (wanted : chosen (virtualPaddles s).1 (virtualPaddles s).2 s = some x) : shown s.pb = some x := by
  rw [← chooseElement_eq_chosen, virtualPaddles_eq_shown] at wanted
  obtain ⟨rfl, hwanted⟩ | ⟨rfl, hwanted⟩ := chooseElement_wanted wanted
  · rw [Bool.or_eq_true, decide_eq_true_eq] at hwanted
    exact hwanted.elim id h.dot
  · rw [Bool.or_eq_true, decide_eq_true_eq] at hwanted
    exact hwanted.elim id h.dash

/-- A key step in playback keeps the latches to what is shown, and an element start clears both. -/
theorem IambicMove.latchesShown (move : IambicMove (virtualPaddles s).1 (virtualPaddles s).2 s t)
    (hev : s.ev = .none) (h : LatchesShown s.key s.pb) :
    LatchesShown t.key s.pb ∧ (t.ev.isElement = true → t.key.dot = false ∧ t.key.dash = false) := by
  have hquiet : s.ev.isElement = false := by rw [hev]; rfl
  have latched : LatchesShown (latchOpposite (virtualPaddles s).1 (virtualPaddles s).2 s).key s.pb := by
    rw [virtualPaddles_eq_shown]
    constructor <;> intro hlatch <;>
      simp only [latchOpposite_key, Bool.or_eq_true, Bool.and_eq_true, decide_eq_true_eq] at hlatch
    · exact hlatch.elim h.dot And.right
    · exact hlatch.elim h.dash And.right
  cases move with
  | elementRuns phase timer =>
    exact ⟨⟨latched.dot, latched.dash⟩, fun helement => absurd (hquiet.symm.trans helement) (by simp)⟩
  | elementEnds phase timer => exact ⟨⟨latched.dot, latched.dash⟩, fun helement => by cases helement⟩
  | gapRuns phase timer => exact ⟨⟨h.dot, h.dash⟩, fun helement => absurd (hquiet.symm.trans helement) (by simp)⟩
  | gapExpires phase timer none =>
    exact ⟨⟨h.dot, h.dash⟩, fun helement => absurd (hquiet.symm.trans helement) (by simp)⟩
  | waitRuns phase timer none =>
    exact ⟨⟨h.dot, h.dash⟩, fun helement => absurd (hquiet.symm.trans helement) (by simp)⟩
  | waitExpires phase timer none => exact ⟨⟨h.dot, h.dash⟩, fun helement => by cases helement⟩
  | rests phase none => exact ⟨h, fun helement => absurd (hquiet.symm.trans helement) (by simp)⟩
  | @starts x phase wanted =>
    have hshown := h.chosen_eq wanted
    have hclear : (startElement x (virtualPaddles s).1 (virtualPaddles s).2 s).key.dot = false ∧
        (startElement x (virtualPaddles s).1 (virtualPaddles s).2 s).key.dash = false := by
      cases x <;> simp [virtualPaddles_eq_shown, hshown]
    obtain ⟨hdot, hdash⟩ := hclear
    exact ⟨⟨fun h => absurd h (Bool.eq_false_iff.mp hdot), fun h => absurd h (Bool.eq_false_iff.mp hdash)⟩,
      fun _ => ⟨hdot, hdash⟩⟩

/-- `EOC` comes with the return to rest. -/
theorem IambicMove.idle_of_eoc (move : IambicMove pd ps s t) (hev : s.ev = .none) (heoc : t.ev = .eoc) :
    t.key.phase = .idle := by
  cases move with
  | waitExpires phase timer none => rfl
  | elementEnds phase timer => cases heoc
  | @starts x phase wanted => cases x <;> cases heoc
  | elementRuns phase | gapRuns phase | gapExpires phase | waitRuns phase | rests phase =>
    exact absurd (hev.symm.trans heoc) (by simp)

section
variable {e : Event} {pb : Playback}

theorem fed_pat : (fed e pb).pat = pb.pat := by
  unfold fed
  split_ifs <;> rfl

theorem eoc_of_fed (h : (fed e pb).active = false) (hactive : pb.active = true) : e = .eoc := by
  by_contra heoc
  simp only [fed, hactive, heoc, true_and, if_false] at h
  split at h <;> simp [hactive] at h

/-- Without an element start a playback that goes on shows the same element. -/
theorem fed_of_active (h : (fed e pb).active = true) (helement : e.isElement = false) : fed e pb = pb := by
  unfold fed at h ⊢
  simp only [helement, Bool.false_eq_true, and_false, if_false] at h ⊢
  split at h
  · cases h
  · next hno => rw [if_neg hno]

end

theorem Conduct.latchesShown {mode : Mode} {k : KeyState} {pb : Playback} (h : Conduct mode k pb)
    (hactive : pb.active = true) : LatchesShown k pb :=
  ⟨fun hdot => (shown_eq_dot_iff hactive).mpr (h.feedDot hactive hdot),
    fun hdash => (shown_eq_dash_iff hactive).mpr (h.feedDash hactive hdash)⟩

/-- The key step and `P.FEED` in `MEM_SEND_TX` with a playback. -/
theorem Settled.conduct_fed (h : Settled s) (hmode : s.mode = .memSendTx) (hev : s.ev = .none)
    (hactive : s.pb.active = true) (move : IambicMove (virtualPaddles s).1 (virtualPaddles s).2 s t) :
    Conduct .memSendTx t.key (fed t.ev s.pb) := by
  obtain ⟨hlatches, hstarts⟩ := move.latchesShown hev (h.conduct.latchesShown hactive)
  have hfeed : (fed t.ev s.pb).active = true → (t.key.dot = true ∨ t.key.dash = true) → fed t.ev s.pb = s.pb := by
    intro hgoes hlatch
    refine fed_of_active hgoes (Bool.eq_false_iff.mpr fun helement => ?_)
    obtain ⟨hdot, hdash⟩ := hstarts helement
    simp [hdot, hdash] at hlatch
  exact {
    downElement := fun _ => move.downElement (h.conduct.downElement (.inr hmode))
    straightIdle := fun _ hother => absurd rfl hother
    otherModesRest := fun hother => absurd (by decide) hother
    playing := fun _ => ⟨rfl, by rw [fed_pat]; exact (h.conduct.playing hactive).2⟩
    notPlaying := fun _ hended => move.idle_of_eoc hev (eoc_of_fed hended hactive)
    feedDot := fun hgoes hdot => by
      rw [hfeed hgoes (.inl hdot), ← shown_eq_dot_iff hactive]
      exact hlatches.dot hdot
    feedDash := fun hgoes hdash => by
      rw [hfeed hgoes (.inr hdash), ← shown_eq_dash_iff hactive]
      exact hlatches.dash hdash }

/-- Without a playback the key step in `MEM_SEND_TX` does nothing. -/
theorem Settled.iambicNext_silent (h : Settled s) (hmode : s.mode = .memSendTx) (hidle : s.pb.active = false) :
    iambicNext (virtualPaddles s).1 (virtualPaddles s).2 s = s := by
  have hphase := h.conduct.notPlaying hmode hidle
  obtain ⟨hdot, hdash⟩ := h.sound.engine.latches_of_idle hphase
  have hpaddles : virtualPaddles s = (false, false) := by
    rw [virtualPaddles_eq_shown, shown_of_inactive hidle]
    rfl
  have hnext := phaseIdle_rests (tryStart_of_silent hdot hdash)
  simp only [iambicNext, hphase, hpaddles, hnext]

theorem Settled.playback (h : Settled s) (hmode : s.mode = .memSendTx) (hev : s.ev = .none) : Keyed (keyed s) := by
  rw [keyed_memSendTx hmode, tickNext_pFeed]
  have hsound := h.sound.iambicNext (virtualPaddles s).1 (virtualPaddles s).2
  have hsend := (iambicNext_mode (virtualPaddles s).1 (virtualPaddles s).2 s).trans hmode
  have hpb : (iambicNext (virtualPaddles s).1 (virtualPaddles s).2 s).pb = s.pb := by rw [iambicNext_frame]
  refine ⟨⟨hsound.cfg, hsound.counts, hsound.speed, hsound.engine, hsound.memTxIndex, hsound.nv⟩, ?_, fun hdefault => ?_⟩
  · show Conduct (iambicNext _ _ s).mode (iambicNext _ _ s).key (fed (iambicNext _ _ s).ev (iambicNext _ _ s).pb)
    rw [hsend, hpb]
    cases hactive : s.pb.active with
    | true => exact h.conduct_fed hmode hev hactive (iambicNext_move _ _ s)
    | false =>
      have hfed : ∀ e, fed e s.pb = s.pb := fun e => by simp [fed, hactive]
      rw [h.iambicNext_silent hmode hactive, hfed, ← hmode]
      exact h.conduct
  · exact absurd (hsend.symm.trans hdefault) (by decide)

theorem Settled.keyed (h : Settled s) (hev : s.ev = .none) : Keyed (keyed s) := by
  by_cases hphys : s.mode ∈ [Mode.default, .keying, .adjustCs, .memEnter]
  · cases hkey : s.key.mode with
    | straight =>
      rw [keyed_straight hphys hkey]
      exact h.kStraight hphys hkey _
    | iambic =>
      rw [keyed_iambic hphys hkey]
      exact h.kIambic hphys hkey _ _
  · by_cases hmode : s.mode = .memSendTx
    · exact h.playback hmode hev
    · rw [keyed_other (by simp only [List.mem_cons, List.not_mem_nil, or_false] at hphys ⊢; tauto)]
      exact ⟨h.sound, h.conduct, fun hdefault => .inl (h.rests hdefault)⟩

/-! ## The sequencer -/

/-- `Q.AUTO` restores item 7: it leaves `DEFAULT` where the key step has started something, and elsewhere changes no key
engine but by entering `DEFAULT` with one at rest. -/
theorem Keyed.qAuto (h : Keyed s) : Settled (tickNext .qAuto s) := by
  obtain ⟨hsound, hconduct, hawaits⟩ := h
  obtain ⟨hkeying, hdefault, hstays⟩ := autoFollowsKeyEvents s
  by_cases hstart : s.mode = .default ∧ s.ev ∈ [Event.start, .dot, .dash]
  · obtain ⟨hmode, hev⟩ := hstart
    rw [tickNext_of_exec (hkeying hmode hev)]
    refine ⟨⟨hsound.cfg, hsound.counts, hsound.speed, hsound.engine, hsound.memTxIndex, hsound.nv⟩, ?_,
      fun hmem => by cases hmem⟩
    exact {
      downElement := fun hor => hconduct.downElement (.inl (hor.resolve_right (by simp)))
      straightIdle := fun hstraight _ => hconduct.straightIdle hstraight (by simp [hmode])
      otherModesRest := fun hother => absurd (by simp) hother
      playing := fun hactive => by cases hactive
      notPlaying := fun hsend => by cases hsend
      feedDot := fun hactive => by cases hactive
      feedDash := fun hactive => by cases hactive }
  · by_cases hend : s.mode = .keying ∧ (s.ev = .eoc ∨ (s.key.mode = .straight ∧ s.ev = .eoe))
    · obtain ⟨hmode, hev⟩ := hend
      rw [tickNext_of_exec (hdefault hmode hev)]
      obtain ⟨hs, hc, hr⟩ := hsound.entered .default
      exact ⟨⟨hs.cfg, hs.counts, hs.speed, hs.engine, hs.memTxIndex, hs.nv⟩, hc, hr⟩
    · rw [tickNext_of_exec (hstays hstart hend)]
      refine ⟨⟨hsound.cfg, hsound.counts, hsound.speed, hsound.engine, hsound.memTxIndex, hsound.nv⟩, hconduct,
        fun hmode => ?_⟩
      exact (hawaits hmode).resolve_right fun hev => hstart ⟨hmode, hev⟩

theorem Settled.qBeacon (h : Settled s) : Settled (tickNext .qBeacon s) := by
  rw [tickNext_of_exec (exec_qBeacon s)]
  split
  · exact h.sound.entered _
  · exact h

/-- `T.BLINK` and the end of the tick step set the model's own fields. -/
theorem Settled.finished (h : Settled s) : Inv (clearLocals (tickNext .tBlink s)) := by
  obtain ⟨hsound, hconduct, hrests⟩ := h
  exact (inv_iff_settled _).mpr ⟨⟨⟨hsound.cfg, hsound.counts, hsound.speed, hsound.engine, hsound.memTxIndex, hsound.nv⟩,
    hconduct, hrests⟩, rfl, rfl⟩

theorem Keyed.sequenced (h : Keyed s) : Inv (sequenced s) := by
  have hflagged : Keyed (flagEvent s) := by
    rw [flagEvent_eq]
    obtain ⟨hsound, hconduct, hawaits⟩ := h
    exact ⟨⟨hsound.cfg, hsound.counts, hsound.speed, hsound.engine, hsound.memTxIndex, hsound.nv⟩, hconduct, hawaits⟩
  exact hflagged.qAuto.qBeacon.finished

end

/-! ## The claims -/

/-- The invariants after a reset (R52): everything at rest, with the default speed. -/
theorem inv_resetWith {p : Config.Params} {nv : Memory} (schedule : List Config.Pins) (cycle : Nat) (hp : p.Valid)
    (hnv : nv.wf = true) : Inv (State.resetWith p nv schedule cycle) := by
  have hspeed : SpeedOk p (BitVec.ofNat 5 p.defaultSpeed) (BitVec.ofNat 16 (p.dotNum / p.defaultSpeed))
      (BitVec.ofNat 16 (3 * (p.dotNum / p.defaultSpeed))) := by
    have hlegal := speedOk_of_legal (v := BitVec.ofNat 5 p.defaultSpeed) hp
    rw [defaultSpeed_toNat hp] at hlegal
    exact hlegal hp.defaultSpeedLow hp.defaultSpeedHigh
  have hblink : (0 : BitVec 3) = blinkOf p 0 := by simp [blinkOf]
  have hcounts : Counts p 0 0 0 0 (.all 0) := by
    have hdiv := hp.tickDiv
    exact ⟨by omega, Nat.two_pow_pos _, Nat.two_pow_pos _, Nat.two_pow_pos _, fun i => by
      rw [Lines.get_all]
      exact hp.debounceN⟩
  refine (inv_iff_settled _).mpr ⟨⟨⟨hp, hcounts, hspeed, ?_, ?_, hnv⟩, ?_, fun hmode => by cases hmode⟩, hblink, rfl⟩
  · exact engine_atRest p (State.resetWith p nv schedule cycle).key
  · exact hp.memSlotsLow
  · exact conduct_atRest (State.resetWith p nv schedule cycle).key fun hactive => by cases hactive

theorem conventions_valid : Config.conventions.Valid := by
  constructor <;> decide

/-- Settles O41: the invariants by `inv_resetWith`; the outputs are read from the reset values. -/
theorem invariantsHoldAfterReset : Obligations.InvariantsHoldAfterReset := by
  refine ⟨fun p nv schedule cycle hp hnv => inv_resetWith schedule cycle hp hnv, inv_resetWith [] 0 conventions_valid rfl,
    fun p nv schedule cycle => ⟨rfl, rfl, rfl, rfl, ?_, rfl, rfl, rfl, rfl, rfl, rfl, rfl⟩⟩
  simp [blinkOut, blinkOf, State.resetWith]

/-- The cycle's input levels used up and the prescaler counted, the invariants hold as before. -/
theorem inv_beginCycle {s : State} (h : Inv s) {n : Nat} (hn : n < s.cfg.tickDiv) :
    Inv { beginCycle s with presc := n } := by
  obtain ⟨⟨hsound, hconduct, hrests⟩, hblink, hlocals⟩ := (inv_iff_settled s).mp h
  have counts := hsound.counts
  exact (inv_iff_settled _).mpr ⟨⟨⟨hsound.cfg, ⟨hn, counts.tcount, counts.ritT0, counts.beaconT0, counts.cnt⟩,
    hsound.speed, hsound.engine, hsound.memTxIndex, hsound.nv⟩, hconduct, hrests⟩, hblink, hlocals⟩

theorem presc_lt_of_not_strobe {s : State} (hstrobe : strobe s = false) : s.presc + 1 < s.cfg.tickDiv := by
  simpa [strobe] using hstrobe

/-- Settles O40, by the four things a cycle can be: a reset; a tick step, whose three parts keep `Settled`, lead to `Keyed`
and back (`Settled.sampled`, `Settled.keyed`, `Keyed.sequenced`); a command step (`inv_commandStep`); or a count. -/
theorem invariantsKeptByEveryStep : Obligations.InvariantsKeptByEveryStep := by
  intro s t hinv
  refine step_cases (P := fun o => o = .next t → Inv t) s (fun _ ht => ?_) (fun _ _ ht => ?_) (fun _ hstrobe ht => ?_)
    fun _ hstrobe ht => ?_
  · cases ht
    exact inv_resetWith s.schedule.tail (s.cycle + 1) hinv.cfg hinv.nv
  · cases ht
    have hdiv := hinv.cfg.tickDiv
    obtain ⟨hsettled, _⟩ := (inv_iff_settled _).mp (inv_beginCycle hinv (n := 0) (by omega))
    exact ((hsettled.sampled _).keyed rfl).sequenced
  · exact inv_commandStep (inv_beginCycle hinv (presc_lt_of_not_strobe hstrobe)) ht
  · cases ht
    exact inv_beginCycle hinv (presc_lt_of_not_strobe hstrobe)

end Sys2Proof.Machine

/-!
SUPPORT and the proofs of O50, O51 and O60. The signed difference of two counts (40_tick_scheduler.md R103), the
durations of the legal speeds (43_iambic_key_decoder.md R152), and the read port (10_state.md R41 to R43).
-/

namespace Sys2Proof.Machine

open Sys2Proof.Safety

/-! ## Tick counts -/

/-- The distance round the counter's circle is the number of steps made. -/
theorem emod_sub_of_steps (m t n : Nat) (hn : n < m) :
    ((((t + n) % m : Nat) : Int) - (t : Int)) % (m : Int) = n := by
  have hsteps : ((t + n : Nat) : Int) - (t : Int) = n := by omega
  rw [Int.natCast_emod, Int.emod_sub_emod, hsteps]
  exact Int.emod_eq_of_lt (by omega) (by omega)

/-- Settles O50: the count after `n` ticks is `n` steps on (`emod_sub_of_steps`), and `n` is in the non-negative half. -/
theorem elapsedIsTheNumberOfTicks : Obligations.ElapsedIsTheNumberOfTicks := by
  intro w n t0 hlow hhigh _ hn
  have hword : (BitVec.ofNat 32 ((t0.toNat + n) % 2 ^ w)).toNat = (t0.toNat + n) % 2 ^ w := by
    have hmod := Nat.mod_lt (t0.toNat + n) (Nat.two_pow_pos w)
    have hpow : 2 ^ w ≤ 2 ^ 32 := Nat.pow_le_pow_right (by decide) hhigh
    rw [BitVec.toNat_ofNat, Nat.mod_eq_of_lt (by omega)]
  have hhalf : 2 ^ (w - 1) ≤ 2 ^ w := Nat.pow_le_pow_right (by decide) (Nat.sub_le w 1)
  have hdist := emod_sub_of_steps (2 ^ w) t0.toNat n (by omega)
  push_cast at hdist
  simp only [sdiff, hword]
  push_cast
  rw [hdist, if_pos (by exact_mod_cast hn)]

/-! ## The durations -/

/-- A longer interval between dots: with `v * (v + 1) ≤ n` the quotient by the next divisor is smaller. -/
theorem div_succ_lt_div {n v : Nat} (hv : 1 ≤ v) (h : v * (v + 1) ≤ n) : n / (v + 1) < n / v := by
  have hle : v ≤ n / (v + 1) := (Nat.le_div_iff_mul_le (by omega)).mpr h
  have hmul : n / (v + 1) * (v + 1) ≤ n := Nat.div_mul_le_self n (v + 1)
  refine (Nat.le_div_iff_mul_le hv).mpr ?_
  nlinarith

/-- Settles O51: the durations of both speeds are those of R151 (`speedOk_of_legal`), and the quotient falls strictly from
each legal speed to the next (`div_succ_lt_div`). -/
theorem fasterSpeedsHaveShorterDots : Obligations.FasterSpeedsHaveShorterDots := by
  intro s t u v w hvalid hmode hlow hlt hhigh hdense ht hu
  rw [exec_setSpeed, if_pos ⟨hmode, hlow, hlt.le.trans hhigh⟩] at ht
  rw [exec_setSpeed, if_pos ⟨hmode, hlow.trans hlt.le, hhigh⟩] at hu
  cases ht
  cases hu
  have hv := speedOk_of_legal hvalid hlow (hlt.le.trans hhigh)
  have hw := speedOk_of_legal hvalid (hlow.trans hlt.le) hhigh
  refine ⟨?_, hv.dash, hw.dash⟩
  calc (BitVec.ofNat 16 (s.cfg.dotNum / w.toNat)).toNat = s.cfg.dotNum / w.toNat := hw.dot
    _ ≤ s.cfg.dotNum / (v.toNat + 1) := Nat.div_le_div_left hlt (Nat.succ_pos _)
    _ < s.cfg.dotNum / v.toNat :=
      div_succ_lt_div (hvalid.keyMinSpeed.trans hlow) (hdense _ hlow (hlt.trans_le hhigh))
    _ = (BitVec.ofNat 16 (s.cfg.dotNum / v.toNat)).toNat := hv.dot.symm

/-! ## The read port

A register is its fields side by side, widened with 0: a bit of it is found by the widths (`BitVec.getLsbD_append`), and so
is a slice that is a field. -/

theorem extractLsb'_beyond {w start : Nat} {x : BitVec w} (h : w ≤ start) (len : Nat) :
    x.extractLsb' start len = 0 := by
  ext i hi
  rw [BitVec.getElem_extractLsb', BitVec.getLsbD_of_ge x _ (by omega)]
  simp

/-- A count below `2 ^ n` has no bit from `n` up. -/
theorem getLsbD_eq_false_of_lt {w n k : Nat} {x : BitVec w} (h : x.toNat < 2 ^ n) (hk : n ≤ k) :
    x.getLsbD k = false :=
  Nat.testBit_lt_two_pow (h.trans_le (Nat.pow_le_pow_right (by decide) hk))

section
variable (s : State)

/-- Register `INPUTS` (R42). -/
theorem readReg_inputs :
    (readReg 1 s).getLsbD 0 = s.db.encA ∧ (readReg 1 s).getLsbD 1 = s.db.encB ∧
      (readReg 1 s).getLsbD 2 = s.db.encBtn ∧ (readReg 1 s).getLsbD 3 = s.db.ritBtn ∧
      (readReg 1 s).getLsbD 4 = s.db.keyerBtn ∧ (readReg 1 s).getLsbD 5 = s.db.dot ∧
      (readReg 1 s).getLsbD 6 = s.db.dash ∧ (readReg 1 s).extractLsb' 7 2 = s.encoderValue ∧
      (readReg 1 s).getLsbD 9 = s.encoderLastClock ∧ (readReg 1 s).extractLsb' 10 22 = 0 := by
  have hreg : readReg 1 s = (regInputs s).setWidth 32 := rfl
  simp (disch := omega) only [hreg, BitVec.getLsbD_setWidth, BitVec.extractLsb'_setWidth_of_le, extractLsb'_beyond]
  refine ⟨?_, ?_, ?_, ?_, ?_, ?_, ?_, ?slice, ?_, trivial⟩ <;> unfold regInputs
  case slice =>
    simp (disch := omega) only [BitVec.extractLsb'_append_eq_of_le, BitVec.extractLsb'_append_eq_of_add_le]
    simp
  all_goals
    simp only [BitVec.getLsbD_append]
    simp

/-- Register `KEY` (R43). -/
theorem readReg_key :
    (readReg 2 s).getLsbD 0 = decide (s.key.mode = .straight) ∧ (readReg 2 s).getLsbD 1 = s.key.timeout ∧
      (readReg 2 s).getLsbD 2 = s.key.dot ∧ (readReg 2 s).getLsbD 3 = s.key.dash ∧
      (readReg 2 s).extractLsb' 4 5 = s.key.speed ∧ (readReg 2 s).getLsbD 9 = s.key.keyDown ∧
      (readReg 2 s).extractLsb' 10 2 = s.key.phase.code ∧ (readReg 2 s).extractLsb' 12 2 = s.key.last.code ∧
      (readReg 2 s).extractLsb' 14 18 = 0 := by
  have hreg : readReg 2 s = (regKey s.key).setWidth 32 := rfl
  have hmode : s.key.mode.code.getLsbD 0 = decide (s.key.mode = .straight) := by cases s.key.mode <;> rfl
  simp (disch := omega) only [hreg, BitVec.getLsbD_setWidth, BitVec.extractLsb'_setWidth_of_le, extractLsb'_beyond]
  refine ⟨?_, ?_, ?_, ?_, ?speed, ?_, ?phase, ?last, trivial⟩ <;> unfold regKey
  case speed | phase | last =>
    simp (disch := omega) only [BitVec.extractLsb'_append_eq_of_le, BitVec.extractLsb'_append_eq_of_add_le]
    simp
  all_goals
    simp only [BitVec.getLsbD_append, hmode]
    simp

/-- Register `RIG` (R41). -/
theorem readReg_rig :
    (readReg 7 s).getLsbD 0 = s.beacon ∧ (readReg 7 s).extractLsb' 1 7 = 0 ∧
      (readReg 7 s).extractLsb' 8 8 = s.memTxIndex ∧ (readReg 7 s).extractLsb' 16 16 = 0 := by
  have hreg : readReg 7 s = (regRig s).setWidth 32 := rfl
  simp (disch := omega) only [hreg, BitVec.getLsbD_setWidth, BitVec.extractLsb'_setWidth_of_le, extractLsb'_beyond]
  refine ⟨?beacon, ?_, ?_, trivial⟩ <;> unfold regRig
  case beacon =>
    simp only [BitVec.getLsbD_append]
    simp
  all_goals
    simp (disch := omega) only [BitVec.extractLsb'_append_eq_of_le, BitVec.extractLsb'_append_eq_of_add_le]
    simp

/-- Register `PB` (R41). -/
theorem readReg_pb :
    (readReg 10 s).extractLsb' 0 8 = s.pb.pat ∧ (readReg 10 s).extractLsb' 8 3 = s.pb.rem ∧
      (readReg 10 s).getLsbD 11 = s.pb.active ∧ (readReg 10 s).extractLsb' 12 20 = 0 := by
  have hreg : readReg 10 s = (regPb s).setWidth 32 := rfl
  simp (disch := omega) only [hreg, BitVec.getLsbD_setWidth, BitVec.extractLsb'_setWidth_of_le, extractLsb'_beyond]
  refine ⟨?_, ?_, ?active, trivial⟩ <;> unfold regPb
  case active =>
    simp only [BitVec.getLsbD_append]
    simp
  all_goals
    simp (disch := omega) only [BitVec.extractLsb'_append_eq_of_le, BitVec.extractLsb'_append_eq_of_add_le]
    simp

theorem readReg_ritArmed : readReg 13 s = if s.ritArmed then 1 else 0 := by
  have hreg : readReg 13 s = (BitVec.ofBool s.ritArmed).setWidth 32 := rfl
  rw [hreg]
  cases s.ritArmed <;> rfl

/-- The tick counts stand in words that are wider than the counter (log 11). -/
theorem readReg_counts_high (h : Inv s) (k : Nat) (hk : s.cfg.tcountW ≤ k) :
    (readReg 0 s).getLsbD k = false ∧ (readReg 11 s).getLsbD k = false ∧ (readReg 12 s).getLsbD k = false :=
  ⟨getLsbD_eq_false_of_lt h.tcount hk, getLsbD_eq_false_of_lt h.beaconT0 hk, getLsbD_eq_false_of_lt h.ritT0 hk⟩

/-- A command word that is not offered has no effect (R250). -/
theorem step_of_cmd_not_offered (p : Config.Pins) (rest : List Config.Pins) (w : BitVec 16) (h : p.cmdValid = false) :
    step { s with schedule := { p with cmd := w } :: rest } = step { s with schedule := p :: rest } := by
  unfold step clockCycle
  simp only [pins, List.headD_cons, h]
  rfl

end

/-- Settles O60: the registers one by one, and a step that looks at neither `rd_addr` nor a word not offered. -/
theorem readPortLayout : Obligations.ReadPortLayout := fun s =>
  ⟨rfl, rfl, readReg_inputs s, readReg_key s, rfl, rfl, rfl, rfl, readReg_rig s, rfl, rfl, readReg_pb s, rfl, rfl,
    readReg_ritArmed s, rfl, rfl, readReg_counts_high s,
    fun p rest _ w => ⟨rfl, step_of_cmd_not_offered s p rest w⟩⟩

end Sys2Proof.Machine

/-!
SUPPORT and the proofs of O53, O54 and O55. The course of one element with the gap after it, under any paddles
(43_iambic_key_decoder.md R157, R158), and what follows from it about sequences of elements (R161, R162).
-/

namespace Sys2Proof.Machine

open Sys2Proof.Safety

/-! ## Runs of key steps -/

theorem keyTick_eq (paddles : Bool × Bool) (s : State) :
    keyTick paddles s = iambicNext paddles.1 paddles.2 (clearEvent s) := rfl

/-- A run of `m + n` steps is a run of `m` steps and then one of `n` steps, on the later paddles. -/
theorem keyAfter_add (p : Nat → Bool × Bool) (m n : Nat) (s : State) :
    keyAfter p (m + n) s = keyAfter (fun k => p (m + k)) n (keyAfter p m s) := by
  induction n with
  | zero => rfl
  | succ n ih => rw [← Nat.add_assoc, keyAfter, ih, keyAfter]

theorem keyEvent_add (p : Nat → Bool × Bool) (m k : Nat) (s : State) :
    keyEvent p (m + k) s = keyEvent (fun k => p (m + k)) k (keyAfter p m s) :=
  congrArg State.ev (keyAfter_add p m (k + 1) s)

/-- What no key step writes: `SQUEEZE_FIRST` among the parameters, and the durations. -/
structure SameSettings (s t : State) : Prop where
  cfg : t.cfg = s.cfg
  dotTime : t.key.dotTime = s.key.dotTime
  dashTime : t.key.dashTime = s.key.dashTime

theorem SameSettings.trans {s t u : State} (hst : SameSettings s t) (htu : SameSettings t u) : SameSettings s u where
  cfg := htu.cfg.trans hst.cfg
  dotTime := htu.dotTime.trans hst.dotTime
  dashTime := htu.dashTime.trans hst.dashTime

theorem keyTick_sameSettings (paddles : Bool × Bool) (s : State) : SameSettings s (keyTick paddles s) := by
  have hsettings := iambicNext_settings paddles.1 paddles.2 (clearEvent s)
  simp only [KeyState.settings, Prod.mk.injEq] at hsettings
  obtain ⟨_, _, hdot, hdash⟩ := hsettings
  refine ⟨?_, hdot, hdash⟩
  rw [keyTick_eq, iambicNext_frame]
  rfl

theorem keyAfter_sameSettings (p : Nat → Bool × Bool) (n : Nat) (s : State) : SameSettings s (keyAfter p n s) := by
  induction n with
  | zero => exact ⟨rfl, rfl, rfl⟩
  | succ n ih => exact ih.trans (keyTick_sameSettings _ _)

/-! ## An element with its gap -/

/-- Where the engine stands `k` steps after a state with `T` ticks of an element left: in the element, or in the gap of
`d` after it. -/
inductive ElementStage (T d k : Nat) (down : Bool) (key : KeyState) : Prop
  | element (hk : k < T) (phase : key.phase = .element) (timer : key.timer.toNat = T - k) (keyDown : key.keyDown = down)
  | gap (low : T ≤ k) (phase : key.phase = .gap) (timer : key.timer.toNat = T + d - k)
      (keyDown : key.keyDown = false)

/-- The opposite paddle, once closed, is in its latch (R157, R162). -/
structure Remembered (paddles : Bool × Bool) (key : KeyState) : Prop where
  dash : key.last = .dot → paddles.2 = true → key.dash = true
  dot : key.last = .dash → paddles.1 = true → key.dot = true

/-- The state `k` key steps after the state `s` inside an element, up to the last tick of the gap. -/
structure ElementCourse (p : Nat → Bool × Bool) (s : State) (k : Nat) (t : State) : Prop where
  same : SameSettings s t
  last : t.key.last = s.key.last
  remembered : ∀ j < k, j < s.key.timer.toNat → Remembered (p j) t.key
  ev : k ≠ 0 → t.ev = if k = s.key.timer.toNat then .eoe else .none
  stage : ElementStage s.key.timer.toNat s.key.dotTime.toNat k s.key.keyDown t.key

section
variable {p : Nat → Bool × Bool} {s t : State} {k : Nat}

theorem remembered_latchOpposite (pd ps : Bool) (s : State) : Remembered (pd, ps) (latchOpposite pd ps s).key := by
  constructor <;> intro hlast hclosed <;> simp_all [latchOpposite_key]

/-- What is remembered stays remembered during the element. -/
theorem Remembered.latchOpposite {paddles : Bool × Bool} (h : Remembered paddles s.key) (pd ps : Bool) :
    Remembered paddles (latchOpposite pd ps s).key where
  dash hlast hclosed := by rw [latchOpposite_key]; simp [h.dash hlast hclosed]
  dot hlast hclosed := by rw [latchOpposite_key]; simp [h.dot hlast hclosed]

/-- A step of the element remembers the opposite paddle and keeps what was remembered. -/
theorem ElementCourse.remembered_step (h : ElementCourse p s k t) :
    ∀ j < k + 1, j < s.key.timer.toNat → Remembered (p j) (latchOpposite (p k).1 (p k).2 t).key := by
  intro j hj hin
  obtain hlt | rfl := Nat.lt_succ_iff_lt_or_eq.mp hj
  · exact (h.remembered j hlt hin).latchOpposite _ _
  · exact remembered_latchOpposite _ _ t

/-- A step of the element: it ends exactly when its ticks are used up (R157). -/
theorem ElementCourse.element_step (h : ElementCourse p s k t) (hk : k < s.key.timer.toNat) (hphase : t.key.phase = .element)
    (htimer : t.key.timer.toNat = s.key.timer.toNat - k) (hdown : t.key.keyDown = s.key.keyDown) :
    ElementCourse p s (k + 1) (keyTick (p k) t) := by
  have hsame := h.same.trans (keyTick_sameSettings (p k) t)
  have hremembered := h.remembered_step
  have hstep : keyTick (p k) t = phaseElement (p k).1 (p k).2 (clearEvent t) := keyTick_element hphase
  rw [hstep] at hsame ⊢
  by_cases hend : k + 1 = s.key.timer.toNat
  case pos =>
    rw [phaseElement_ends (s := clearEvent t) (htimer.trans (by omega))] at hsame ⊢
    refine ⟨hsame, h.last, fun j hj hin => ?_, fun _ => (if_pos hend).symm, .gap hend.ge rfl ?_ rfl⟩
    · exact ⟨(hremembered j hj hin).dash, (hremembered j hj hin).dot⟩
    · exact (congrArg BitVec.toNat h.same.dotTime).trans (by omega)
  case neg =>
    rw [phaseElement_runs (s := clearEvent t) (htimer.trans_ne (by omega))] at hsame ⊢
    refine ⟨hsame, h.last, fun j hj hin => ?_, fun _ => (if_neg hend).symm, .element (by omega) hphase ?_ hdown⟩
    · exact ⟨(hremembered j hj hin).dash, (hremembered j hj hin).dot⟩
    · exact countDown_timer_toNat (htimer.trans (by omega))

/-- A step of the gap before its last: only the timer counts (R158). -/
theorem ElementCourse.gap_step (h : ElementCourse p s k t) (low : s.key.timer.toNat ≤ k)
    (hk : k + 1 < s.key.timer.toNat + s.key.dotTime.toNat) (hphase : t.key.phase = .gap)
    (htimer : t.key.timer.toNat = s.key.timer.toNat + s.key.dotTime.toNat - k) (hdown : t.key.keyDown = false) :
    ElementCourse p s (k + 1) (keyTick (p k) t) := by
  have hsame := h.same.trans (keyTick_sameSettings (p k) t)
  have hstep : keyTick (p k) t = phaseGap (p k).1 (p k).2 (clearEvent t) := keyTick_gap hphase
  rw [hstep, phaseGap_runs (s := clearEvent t) (htimer.trans_ne (by omega))] at hsame ⊢
  refine ⟨hsame, h.last, fun j hj hin => ?_, fun _ => (if_neg (by omega)).symm, .gap (by omega) hphase ?_ hdown⟩
  · have hold := h.remembered j (by omega) hin
    exact ⟨hold.dash, hold.dot⟩
  · exact countDown_timer_toNat (htimer.trans (by omega))

/-- The course of an element with ticks left and its gap, by induction on the key steps: the paddles do not matter. -/
theorem elementCourse_keyAfter (p : Nat → Bool × Bool) (hphase : s.key.phase = .element)
    (hT : 1 ≤ s.key.timer.toNat) (hk : k ≤ s.key.timer.toNat ∨ k < s.key.timer.toNat + s.key.dotTime.toNat) :
    ElementCourse p s k (keyAfter p k s) := by
  induction k with
  | zero =>
    exact ⟨⟨rfl, rfl, rfl⟩, rfl, fun j hj => absurd hj (Nat.not_lt_zero j), fun h => absurd rfl h,
      .element hT hphase rfl rfl⟩
  | succ k ih =>
    have h := ih (by omega)
    cases h.stage with
    | element hin phase timer keyDown => exact h.element_step hin phase timer keyDown
    | gap low phase timer keyDown => exact h.gap_step low (by omega) phase timer keyDown

end

/-- Settles O53: up to its last tick the course is in the element, and then the gap begins. -/
theorem elementRunsItsFullLength : Obligations.ElementRunsItsFullLength := by
  intro s p k hphase hdown hk
  have h := elementCourse_keyAfter (k := k + 1) p hphase (by omega) (.inl hk)
  refine ⟨h.ev (Nat.succ_ne_zero k), ?_, fun hend => ?_⟩
  · cases h.stage with
    | element hin phase timer keyDown => rw [keyDown, hdown, decide_eq_true (by omega)]
    | gap low phase timer keyDown => rw [keyDown, decide_eq_false (by omega)]
  · cases h.stage with
    | element hin => omega
    | gap low phase timer => exact ⟨phase, BitVec.eq_of_toNat_eq (by omega)⟩

/-! ## The decision instant -/

/-- The next key step starts an element if one is wanted: the engine is at rest, or in the last tick of a gap. -/
def Ready (s : State) : Prop := s.key.phase = .idle ∨ (s.key.phase = .gap ∧ s.key.timer.toNat = 1)

theorem Ready.keyTick_starts {s : State} (h : Ready s) {pd ps : Bool} {x : Element} (wanted : chosen pd ps s = some x) :
    keyTick (pd, ps) s = startElement x pd ps (clearEvent s) := by
  have hstart : tryStart pd ps (clearEvent s) = some (startElement x pd ps (clearEvent s)) := by
    rw [startElement_eq_started]
    exact tryStart_eq_some (s := clearEvent s) wanted
  obtain hidle | ⟨hgap, hlast⟩ := h
  · rw [keyTick_idle hidle, phaseIdle_starts hstart]
  · rw [keyTick_gap hgap]
    refine phaseGap_starts (s := clearEvent s) hlast ?_
    rw [startElement_eq_started, ← started_countDown]
    exact tryStart_eq_some (s := countDown (clearEvent s)) wanted

section
variable {p : Nat → Bool × Bool} {s t : State}

/-- The last step of the course is ready for the next element. -/
theorem ElementCourse.ready (h : ElementCourse p s (s.key.timer.toNat + s.key.dotTime.toNat - 1) t)
    (hd : 1 ≤ s.key.dotTime.toNat) : Ready t := by
  cases h.stage with
  | element hk => omega
  | gap low phase timer => exact .inr ⟨phase, by omega⟩

/-- A dash remembered in a dot is sent next (R156, R162). -/
theorem chosen_of_dash_remembered {pd ps : Bool} (hlast : s.key.last = .dot) (hdash : s.key.dash = true) :
    chosen pd ps s = some .dash := by
  simp only [chosen, hlast, hdash, or_true, not_true, and_false, if_false, and_true, if_true]
  split_ifs <;> rfl

/-- A dot remembered in a dash is sent next (R156, R162). -/
theorem chosen_of_dot_remembered {pd ps : Bool} (hlast : s.key.last = .dash) (hdot : s.key.dot = true) :
    chosen pd ps s = some .dot := by
  simp only [chosen, hlast, hdot, or_true, not_true, false_and, if_false, true_and, if_true]
  split_ifs <;> simp_all

end

/-- Settles O54: the opposite latch is set at the end of the course (`ElementCourse.remembered`), and at the decision
instant the latch wins (`chosen_of_dash_remembered`, `chosen_of_dot_remembered`). -/
theorem oppositePaddleIsRemembered : Obligations.OppositePaddleIsRemembered := by
  intro s p j hphase hj hd
  have hindex : s.key.timer.toNat - 1 + s.key.dotTime.toNat = s.key.timer.toNat + s.key.dotTime.toNat - 1 := by omega
  have h := elementCourse_keyAfter (k := s.key.timer.toNat + s.key.dotTime.toNat - 1) p hphase
    (by omega) (.inr (by omega))
  have hlatch := h.remembered j (by omega) hj
  rw [hindex]
  refine ⟨fun hlast hclosed => ?_, fun hlast hclosed => ?_⟩
  · have hlast' := h.last.trans hlast
    exact congrArg State.ev ((h.ready hd).keyTick_starts (chosen_of_dash_remembered hlast' (hlatch.dash hlast' hclosed)))
  · have hlast' := h.last.trans hlast
    exact congrArg State.ev ((h.ready hd).keyTick_starts (chosen_of_dot_remembered hlast' (hlatch.dot hlast' hclosed)))

/-! ## An element from its start to the next decision -/

/-- The event of key step `k` of an element of `n` ticks and its gap, counted from the start of the element. -/
def elementEvent (x : Element) (n k : Nat) : Event := if k = 0 then eventOf x else if k = n then .eoe else .none

/-- An element that is wanted at a decision instant runs, and the next decision instant is ready. -/
structure ElementRun (p : Nat → Bool × Bool) (x : Element) (s : State) : Prop where
  events : ∀ k < (durationOf s.key x).toNat + s.key.dotTime.toNat,
    keyEvent p k s = elementEvent x (durationOf s.key x).toNat k
  ready : Ready (keyAfter p ((durationOf s.key x).toNat + s.key.dotTime.toNat) s)
  gap : (keyAfter p ((durationOf s.key x).toNat + s.key.dotTime.toNat) s).key.phase = .gap
  last : (keyAfter p ((durationOf s.key x).toNat + s.key.dotTime.toNat) s).key.last = lastOf x

theorem Ready.elementRun {s : State} (h : Ready s) {p : Nat → Bool × Bool} {x : Element}
    (wanted : chosen (p 0).1 (p 0).2 s = some x) (hd : 1 ≤ s.key.dotTime.toNat)
    (hx : 1 ≤ (durationOf s.key x).toNat) : ElementRun p x s := by
  have hstart : keyAfter p 1 s = startElement x (p 0).1 (p 0).2 (clearEvent s) := h.keyTick_starts wanted
  have hT : (keyAfter p 1 s).key.timer = durationOf s.key x := by rw [hstart]; rfl
  have hdot : (keyAfter p 1 s).key.dotTime = s.key.dotTime := (keyAfter_sameSettings p 1 s).dotTime
  have course : ∀ k < (durationOf s.key x).toNat + s.key.dotTime.toNat,
      ElementCourse (fun k => p (1 + k)) (keyAfter p 1 s) k (keyAfter p (1 + k) s) := by
    intro k hk
    rw [keyAfter_add]
    refine elementCourse_keyAfter _ ?_ ?_ (.inr ?_)
    · rw [hstart]
      rfl
    · rwa [hT]
    · rwa [hT, hdot]
  have hend : (durationOf s.key x).toNat + s.key.dotTime.toNat =
      1 + ((durationOf s.key x).toNat + s.key.dotTime.toNat - 1) := by omega
  have last := course ((durationOf s.key x).toNat + s.key.dotTime.toNat - 1) (by omega)
  rw [← hend] at last
  refine ⟨fun k hk => ?_, ?_, ?_, ?_⟩
  · cases k with
    | zero => exact congrArg State.ev hstart
    | succ k =>
      have hev := (course (k + 1) hk).ev (Nat.succ_ne_zero k)
      rw [hT, Nat.add_comm] at hev
      rw [elementEvent, if_neg (Nat.succ_ne_zero k)]
      exact hev
  · rw [← hT, ← hdot] at last ⊢
    exact last.ready (by rwa [hdot])
  · cases last.stage with
    | element hin =>
      rw [hT] at hin
      omega
    | gap low phase => exact phase
  · rw [last.last, hstart]
    rfl

/-! ## The squeeze -/

/-- The other element. -/
def opposite : Element → Element
  | .dot => .dash
  | .dash => .dot

theorem opposite_opposite (x : Element) : opposite (opposite x) = x := by
  cases x <;> rfl

/-- A decision instant of a squeeze, at which `x` comes next. -/
structure SqueezeAt (d a : Nat) (x : Element) (s : State) : Prop where
  ready : Ready s
  wanted : chosen true true s = some x
  dotTime : s.key.dotTime.toNat = d
  dashTime : s.key.dashTime.toNat = a

/-- The duration of an element where a dot takes `d` and a dash `a`. -/
def lengthOf (d a : Nat) : Element → Nat
  | .dot => d
  | .dash => a

section
variable {d a : Nat} {x : Element} {s : State} {p : Nat → Bool × Bool}

theorem chosen_squeezed (s : State) : chosen true true s = some
    (if s.key.last = .dot then .dash else if s.key.last = .dash then .dot else s.cfg.squeezeFirst) := by
  simp only [chosen, true_or, not_true, and_false, and_true, if_false, if_true]
  split_ifs <;> rfl

theorem chosen_squeezed_of_last (hlast : s.key.last = lastOf x) : chosen true true s = some (opposite x) := by
  rw [chosen_squeezed, hlast]
  cases x <;> rfl

theorem durationOf_toNat (hd : s.key.dotTime.toNat = d) (ha : s.key.dashTime.toNat = a) (x : Element) :
    (durationOf s.key x).toNat = lengthOf d a x := by
  cases x
  · exact hd
  · exact ha

/-- One element of a squeeze, with its gap, leads to the decision instant of the other. -/
theorem SqueezeAt.element (h : SqueezeAt d a x s) (hd : 1 ≤ d) (ha : 1 ≤ a) (hp : ∀ k, p k = (true, true)) :
    (∀ k < lengthOf d a x + d, keyEvent p k s = elementEvent x (lengthOf d a x) k) ∧
      SqueezeAt d a (opposite x) (keyAfter p (lengthOf d a x + d) s) := by
  have hlength := durationOf_toNat h.dotTime h.dashTime x
  have hpos : 1 ≤ lengthOf d a x := by cases x <;> assumption
  have same := keyAfter_sameSettings p (lengthOf d a x + d) s
  obtain ⟨events, ready, _, last⟩ := h.ready.elementRun (p := p) (x := x) (by rw [hp]; exact h.wanted)
    (by rwa [h.dotTime]) (by rwa [hlength])
  rw [hlength, h.dotTime] at events ready last
  exact ⟨events, ready, chosen_squeezed_of_last last, same.dotTime ▸ h.dotTime, same.dashTime ▸ h.dashTime⟩

/-- The event at tick `k` of the periodic timeline of a squeeze that begins with `x`. -/
def squeezeEvent (d a : Nat) (x : Element) (k : Nat) : Event :=
  if k < lengthOf d a x + d then elementEvent x (lengthOf d a x) k
  else elementEvent (opposite x) (lengthOf d a (opposite x)) (k - (lengthOf d a x + d))

theorem period_eq (d a : Nat) (x : Element) : lengthOf d a x + d + (lengthOf d a (opposite x) + d) = 3 * d + a := by
  cases x <;> simp only [lengthOf, opposite] <;> omega

/-- Two elements of a squeeze are a period. -/
theorem SqueezeAt.period (h : SqueezeAt d a x s) (hd : 1 ≤ d) (ha : 1 ≤ a) (hp : ∀ k, p k = (true, true)) :
    (∀ k < 3 * d + a, keyEvent p k s = squeezeEvent d a x k) ∧ SqueezeAt d a x (keyAfter p (3 * d + a) s) := by
  obtain ⟨events, next⟩ := h.element hd ha hp
  obtain ⟨events', next'⟩ := next.element (p := fun k => p (lengthOf d a x + d + k)) hd ha fun _ => hp _
  rw [← keyAfter_add, period_eq] at next'
  refine ⟨fun k hk => ?_, opposite_opposite x ▸ next'⟩
  rw [← period_eq d a x] at hk
  by_cases hfirst : k < lengthOf d a x + d
  · rw [squeezeEvent, if_pos hfirst, events k hfirst]
  · obtain ⟨j, rfl⟩ := Nat.exists_eq_add_of_le (not_lt.mp hfirst)
    rw [squeezeEvent, if_neg hfirst, keyEvent_add, events' j (by omega), Nat.add_sub_cancel_left]

/-- Every period of a squeeze begins as the first one. -/
theorem SqueezeAt.periods (h : SqueezeAt d a x s) (hd : 1 ≤ d) (ha : 1 ≤ a) (hp : ∀ k, p k = (true, true)) (n : Nat) :
    SqueezeAt d a x (keyAfter p ((3 * d + a) * n) s) := by
  induction n with
  | zero => exact h
  | succ n ih =>
    rw [Nat.mul_succ, keyAfter_add]
    exact (ih.period hd ha fun _ => hp _).2

theorem SqueezeAt.events (h : SqueezeAt d a x s) (hd : 1 ≤ d) (ha : 1 ≤ a) (hp : ∀ k, p k = (true, true)) (k : Nat) :
    keyEvent p k s = squeezeEvent d a x (k % (3 * d + a)) := by
  have hk := Nat.div_add_mod k (3 * d + a)
  have hmod : k % (3 * d + a) < 3 * d + a := Nat.mod_lt k (by omega)
  calc keyEvent p k s = keyEvent p ((3 * d + a) * (k / (3 * d + a)) + k % (3 * d + a)) s := by rw [hk]
    _ = squeezeEvent d a x (k % (3 * d + a)) := by
      rw [keyEvent_add]
      exact ((h.periods hd ha hp _).period hd ha fun _ => hp _).1 _ hmod

end

/-- The ticks of R161 with `SQUEEZE_FIRST` a dot. -/
theorem squeezeEvent_dot {d a k : Nat} (hd : 1 ≤ d) : squeezeEvent d a .dot k =
    if k = 0 then .dot else if k = d then .eoe else if k = 2 * d then .dash else if k = 2 * d + a then .eoe
    else .none := by
  simp only [squeezeEvent, elementEvent, lengthOf, opposite, eventOf]
  grind

/-- The ticks of R161 with `SQUEEZE_FIRST` a dash. -/
theorem squeezeEvent_dash {d a k : Nat} (hd : 1 ≤ d) : squeezeEvent d a .dash k =
    if k = 0 then .dash else if k = a then .eoe else if k = a + d then .dot else if k = a + 2 * d then .eoe
    else .none := by
  simp only [squeezeEvent, elementEvent, lengthOf, opposite, eventOf]
  grind

/-- Settles O55: a squeeze from rest is one in the sense of `SqueezeAt`, whose periodic timeline (`SqueezeAt.events`) is the
one of R161. -/
theorem squeezeAlternates : Obligations.SqueezeAlternates := by
  intro s p hphase hlast hd ha hp d a k
  have hwanted : chosen true true s = some s.cfg.squeezeFirst := by rw [chosen_squeezed, hlast]; rfl
  have h : SqueezeAt d a s.cfg.squeezeFirst s := ⟨.inl hphase, hwanted, rfl, rfl⟩
  have hevents := h.events hd ha hp k
  refine ⟨fun hfirst => ?_, fun hfirst => ?_⟩
  · rw [hevents, hfirst, squeezeEvent_dot hd]
  · rw [hevents, hfirst, squeezeEvent_dash hd]

end Sys2Proof.Machine

/-!
SUPPORT and the proof of O56. Playback (45_morse_codec_playback.md R235 to R243): in `MEM_SEND_TX` a tick step makes the key
step on the paddles that the feeder shows, and consumes an element when one starts.
-/

namespace Sys2Proof.Machine

open Sys2Proof.Safety

/-! ## A tick step of a playback -/

/-- The parameters, the key engine and the event are the same. -/
structure SameEngine (s t : State) : Prop where
  cfg : t.cfg = s.cfg
  key : t.key = s.key
  ev : t.ev = s.ev

theorem SameEngine.trans {s t u : State} (hst : SameEngine s t) (htu : SameEngine t u) : SameEngine s u where
  cfg := htu.cfg.trans hst.cfg
  key := htu.key.trans hst.key
  ev := htu.ev.trans hst.ev

theorem SameEngine.eq_graft {s t : State} (h : SameEngine s t) : t = graft s t := by
  rw [graft, ← h.cfg, ← h.key, ← h.ev]

theorem SameEngine.iambicNext {s t : State} (h : SameEngine s t) (pd ps : Bool) :
    SameEngine (iambicNext pd ps s) (iambicNext pd ps t) := by
  rw [h.eq_graft, iambicNext_graft]
  exact ⟨rfl, rfl, rfl⟩

theorem SameEngine.clearEvent {s t : State} (h : SameEngine s t) : SameEngine (clearEvent s) (clearEvent t) :=
  ⟨h.cfg, h.key, rfl⟩

theorem SameEngine.keyTick {s t : State} (h : SameEngine s t) (paddles : Bool × Bool) :
    SameEngine (keyTick paddles s) (keyTick paddles t) :=
  h.clearEvent.iambicNext _ _

/-- What a tick step in `MEM_SEND_TX` does with the key engine and the playback. -/
structure PlaybackTick (s t : State) : Prop where
  mode : t.mode = .memSendTx
  engine : SameEngine (keyTick (virtualPaddles s) s) t
  pb : t.pb = fed t.ev s.pb
  done : s.pb.active = true → t.ev = .eoc → t.evflags.getLsbD 9 = true

theorem virtualPaddles_congr {s t : State} (h : t.pb = s.pb) : virtualPaddles t = virtualPaddles s := by
  rw [virtualPaddles_eq_shown, virtualPaddles_eq_shown, h]

theorem tickOn_of_tickStep {raw : Lines Bool} {s t : State} (h : tickStep raw s = .next t) : tickOn raw s = t := by
  delta tickOn
  rw [h]

theorem playbackTick_tickOn (raw : Lines Bool) {s : State} (hmode : s.mode = .memSendTx) :
    PlaybackTick s (tickOn raw s) := by
  have frame := sampled_frame raw s
  have hsend : (clearEvent (sampled raw s)).mode = .memSendTx := frame.mode.trans hmode
  have hpaddles : virtualPaddles (clearEvent (sampled raw s)) = virtualPaddles s := virtualPaddles_congr frame.pb
  have hsame : SameEngine (clearEvent s) (clearEvent (sampled raw s)) := ⟨frame.cfg, frame.key, rfl⟩
  have hkey := hsame.iambicNext (virtualPaddles s).1 (virtualPaddles s).2
  have hpb : (iambicNext (virtualPaddles s).1 (virtualPaddles s).2 (clearEvent (sampled raw s))).pb = s.pb := by
    rw [iambicNext_frame]
    exact frame.pb
  rw [tickOn_of_tickStep (tickStep_eq raw s), sequenced_memSendTx ((keyed_mode hsend).trans hsend),
    keyed_memSendTx hsend, hpaddles, tickNext_pFeed, hpb]
  refine ⟨(iambicNext_mode _ _ _).trans hsend, ⟨hkey.cfg, hkey.key, hkey.ev⟩, rfl, fun hactive heoc => ?_⟩
  have hflag : (Flag.mask .pbDone).getLsbD 9 = true := by decide
  rw [if_pos ⟨hactive, heoc⟩, BitVec.getLsbD_or, BitVec.getLsbD_or, hflag, Bool.or_true, Bool.true_or]

/-- The paddles of each tick of a playback. -/
def shownPaddles (raw : Nat → Lines Bool) (s : State) (k : Nat) : Bool × Bool := virtualPaddles (ticksAfter raw k s)

/-- In `MEM_SEND_TX` the tick steps run the key engine on the paddles shown. -/
theorem sameEngine_ticksAfter (raw : Nat → Lines Bool) {s : State} (hmode : s.mode = .memSendTx) (n : Nat) :
    (ticksAfter raw n s).mode = .memSendTx ∧ SameEngine (keyAfter (shownPaddles raw s) n s) (ticksAfter raw n s) := by
  induction n with
  | zero => exact ⟨hmode, rfl, rfl, rfl⟩
  | succ n ih =>
    obtain ⟨hsend, same⟩ := ih
    have tick := playbackTick_tickOn (raw n) hsend
    exact ⟨tick.mode, (same.keyTick _).trans tick.engine⟩

theorem tickEvent_eq_keyEvent (raw : Nat → Lines Bool) {s : State} (hmode : s.mode = .memSendTx) (k : Nat) :
    tickEvent raw k s = keyEvent (shownPaddles raw s) k s :=
  (sameEngine_ticksAfter raw hmode (k + 1)).2.ev

theorem ticksAfter_add (raw : Nat → Lines Bool) (m n : Nat) (s : State) :
    ticksAfter raw (m + n) s = ticksAfter (fun k => raw (m + k)) n (ticksAfter raw m s) := by
  induction n with
  | zero => rfl
  | succ n ih => rw [← Nat.add_assoc, ticksAfter, ih, ticksAfter]

theorem tickEvent_add (raw : Nat → Lines Bool) (m k : Nat) (s : State) :
    tickEvent raw (m + k) s = tickEvent (fun k => raw (m + k)) k (ticksAfter raw m s) :=
  congrArg State.ev (ticksAfter_add raw m (k + 1) s)

/-! ## A playback with elements left -/

/-- The elements of a pattern that are still to be sent when `n` are left: bits `n - 1` to 0 (R236). -/
def elementsLeft (pat : Byte) (n : Nat) : List Element :=
  (List.range n).map fun j => elementOfBit (pat.getLsbD (n - (j + 1)))

theorem elementsLeft_patternLength (pat : Byte) : elementsLeft pat (patternLength pat) = encodePattern pat := rfl

theorem elementsLeft_succ (pat : Byte) (n : Nat) :
    elementsLeft pat (n + 1) = elementOfBit (pat.getLsbD n) :: elementsLeft pat n := by
  simp [elementsLeft, List.range_succ_eq_map, Function.comp_def]

/-- A playback with `n` elements left, in progress. -/
structure Plays (d a : Nat) (pat : Byte) (n : Nat) (s : State) : Prop where
  mode : s.mode = .memSendTx
  active : s.pb.active = true
  pat : s.pb.pat = pat
  rem : s.pb.rem.toNat = n
  latches : LatchesShown s.key s.pb
  dotTime : s.key.dotTime.toNat = d
  dashTime : s.key.dashTime.toNat = a

section
variable {d a n : Nat} {pat : Byte} {s : State} {x : Element} {raw : Nat → Lines Bool}

theorem Plays.shown_succ (h : Plays d a pat (n + 1) s) : shown s.pb = some (elementOfBit (pat.getLsbD n)) := by
  have hrem : s.pb.rem ≠ 0 := fun hzero => by
    have hcount := h.rem
    simp [hzero] at hcount
  rw [shown, if_pos ⟨h.active, hrem⟩, h.pat, h.rem, Nat.add_sub_cancel]

theorem Plays.shown_zero (h : Plays d a pat 0 s) : shown s.pb = none := by
  have hrem : s.pb.rem = 0 := BitVec.eq_of_toNat_eq h.rem
  rw [shown, if_neg (by simp [hrem])]

/-- What the feeder shows is started at a decision instant. -/
theorem Plays.chosen_shown (h : Plays d a pat n s) (hshown : shown s.pb = some x) :
    chosen (virtualPaddles s).1 (virtualPaddles s).2 s = some x := by
  cases hchosen : chosen (virtualPaddles s).1 (virtualPaddles s).2 s with
  | none =>
    obtain ⟨hpd, hps, _⟩ := latches_of_chosen_none hchosen
    rw [virtualPaddles_eq_shown, hshown] at hpd hps
    cases x
    · simp at hpd
    · simp at hps
  | some y => exact (h.latches.chosen_eq hchosen).symm.trans hshown

/-- The key step of a playback, with what it does to the latches. -/
theorem Plays.keyTick_latches (h : Plays d a pat n s) :
    LatchesShown (keyTick (virtualPaddles s) s).key s.pb ∧ ((keyTick (virtualPaddles s) s).ev.isElement = true →
      (keyTick (virtualPaddles s) s).key.dot = false ∧ (keyTick (virtualPaddles s) s).key.dash = false) :=
  IambicMove.latchesShown (s := clearEvent s) (iambicNext_move _ _ _) rfl h.latches

/-- A tick step that neither starts an element nor ends the character keeps the playback as it is. -/
theorem Plays.tick_quiet (h : Plays d a pat n s) (line : Lines Bool) (hev : (tickOn line s).ev ∈ [Event.none, .eoe]) :
    Plays d a pat n (tickOn line s) := by
  have tick := playbackTick_tickOn line h.mode
  have same := keyTick_sameSettings (virtualPaddles s) s
  have hpb : (tickOn line s).pb = s.pb := by
    rw [tick.pb]
    generalize (tickOn line s).ev = e at hev
    simp only [List.mem_cons, List.not_mem_nil, or_false] at hev
    obtain rfl | rfl := hev <;> simp [fed, Event.isElement]
  refine ⟨tick.mode, ?_, ?_, ?_, ?_, ?_, ?_⟩
  · rw [hpb, h.active]
  · rw [hpb, h.pat]
  · rw [hpb, h.rem]
  · rw [hpb, tick.engine.key]
    exact h.keyTick_latches.1
  · rw [tick.engine.key, same.dotTime, h.dotTime]
  · rw [tick.engine.key, same.dashTime, h.dashTime]

/-- A tick step that starts an element consumes it (R237). -/
theorem Plays.tick_element (h : Plays d a pat (n + 1) s) (line : Lines Bool)
    (hev : (tickOn line s).ev.isElement = true) : Plays d a pat n (tickOn line s) := by
  have tick := playbackTick_tickOn line h.mode
  have same := keyTick_sameSettings (virtualPaddles s) s
  have hpb : (tickOn line s).pb = { s.pb with rem := s.pb.rem - 1 } := by
    rw [tick.pb, fed, if_pos ⟨h.active, hev⟩]
  obtain ⟨hdot, hdash⟩ := h.keyTick_latches.2 (tick.engine.ev ▸ hev)
  refine ⟨tick.mode, ?_, ?_, ?_, ?_, ?_, ?_⟩
  · rw [hpb, h.active]
  · rw [hpb, h.pat]
  · have hrem := h.rem
    rw [hpb]
    bv_omega
  · rw [tick.engine.key]
    exact ⟨fun hlatch => by simp [hdot] at hlatch, fun hlatch => by simp [hdash] at hlatch⟩
  · rw [tick.engine.key, same.dotTime, h.dotTime]
  · rw [tick.engine.key, same.dashTime, h.dashTime]

/-- Tick steps without an element start or an `EOC` keep the playback. -/
theorem Plays.ticks_quiet (h : Plays d a pat n s) (raw : Nat → Lines Bool) {m : Nat}
    (hev : ∀ k < m, tickEvent raw k s ∈ [Event.none, .eoe]) : Plays d a pat n (ticksAfter raw m s) := by
  induction m with
  | zero => exact h
  | succ m ih => exact (ih fun k hk => hev k (by omega)).tick_quiet _ (hev m (Nat.lt_succ_self m))

/-- An element of a playback, from the decision instant at which it starts to the next one. -/
structure SendsElement (raw : Nat → Lines Bool) (d a : Nat) (pat : Byte) (n : Nat) (x : Element) (s : State) :
    Prop where
  events : ∀ k < lengthOf d a x + d, tickEvent raw k s = elementEvent x (lengthOf d a x) k
  plays : Plays d a pat n (ticksAfter raw (lengthOf d a x + d) s)
  gap : (ticksAfter raw (lengthOf d a x + d) s).key.phase = .gap
  timer : (ticksAfter raw (lengthOf d a x + d) s).key.timer.toNat = 1

theorem elementEvent_quiet {m k : Nat} (hk : k ≠ 0) : elementEvent x m k ∈ [Event.none, .eoe] := by
  rw [elementEvent, if_neg hk]
  split_ifs <;> decide

theorem Plays.sendsElement (h : Plays d a pat (n + 1) s) (ready : Ready s) (raw : Nat → Lines Bool) (hd : 1 ≤ d)
    (ha : 1 ≤ a) : SendsElement raw d a pat n (elementOfBit (pat.getLsbD n)) s := by
  generalize hx : elementOfBit (pat.getLsbD n) = x
  have hshown : shown s.pb = some x := hx ▸ h.shown_succ
  have hlength := durationOf_toNat h.dotTime h.dashTime x
  have hpos : 1 ≤ lengthOf d a x := by cases x <;> assumption
  have run : ElementRun (shownPaddles raw s) x s :=
    ready.elementRun (h.chosen_shown hshown) (by rwa [h.dotTime]) (by rwa [hlength])
  obtain ⟨events, hready, hgap, _⟩ := run
  rw [hlength, h.dotTime] at events hready hgap
  have hevents : ∀ k < lengthOf d a x + d, tickEvent raw k s = elementEvent x (lengthOf d a x) k := fun k hk =>
    (tickEvent_eq_keyEvent raw h.mode k).trans (events k hk)
  have hkey := (sameEngine_ticksAfter raw h.mode (lengthOf d a x + d)).2.key
  have hfirst : (tickOn (raw 0) s).ev = eventOf x := hevents 0 (by omega)
  refine ⟨hevents, ?_, by rw [hkey, hgap], ?_⟩
  · have started := h.tick_element (raw 0) (by rw [hfirst]; cases x <;> rfl)
    obtain ⟨m, hm⟩ := Nat.exists_eq_add_of_le (show 1 ≤ lengthOf d a x + d by omega)
    rw [hm, ticksAfter_add]
    refine started.ticks_quiet _ fun k hk => ?_
    have hlater := hevents (1 + k) (by omega)
    rw [tickEvent_add] at hlater
    exact hlater ▸ elementEvent_quiet (by omega)
  · rw [hkey]
    exact (hready.resolve_left (by simp [hgap])).2

/-! ## The character gap -/

theorem Plays.virtualPaddles_zero (h : Plays d a pat 0 s) : virtualPaddles s = (false, false) := by
  rw [virtualPaddles_eq_shown, h.shown_zero]
  rfl

theorem Plays.latches_zero (h : Plays d a pat 0 s) : s.key.dot = false ∧ s.key.dash = false := by
  refine ⟨Bool.eq_false_iff.mpr fun hdot => ?_, Bool.eq_false_iff.mpr fun hdash => ?_⟩
  · exact absurd (h.shown_zero.symm.trans (h.latches.dot hdot)) (by simp)
  · exact absurd (h.shown_zero.symm.trans (h.latches.dash hdash)) (by simp)

/-- In the last tick of the last gap nothing is wanted, and the character gap begins (R158). -/
theorem Plays.keyTick_gap_zero (h : Plays d a pat 0 s) (hphase : s.key.phase = .gap) (htimer : s.key.timer.toNat = 1) :
    keyTick (virtualPaddles s) s =
      { clearEvent s with key := { s.key with phase := .wait, timer := s.key.dashTime } } := by
  obtain ⟨hdot, hdash⟩ := h.latches_zero
  rw [h.virtualPaddles_zero, keyTick_gap hphase]
  exact phaseGap_expires (s := clearEvent s) htimer (tryStart_of_silent hdot hdash)

/-- A tick of the character gap before its last (R159). -/
theorem Plays.keyTick_wait_runs (h : Plays d a pat 0 s) (hphase : s.key.phase = .wait)
    (htimer : s.key.timer.toNat ≠ 1) : keyTick (virtualPaddles s) s = countDown (clearEvent s) := by
  obtain ⟨hdot, hdash⟩ := h.latches_zero
  rw [h.virtualPaddles_zero, keyTick_wait hphase]
  exact phaseWait_runs (s := clearEvent s) htimer (tryStart_of_silent hdot hdash)

/-- The last tick of the character gap emits `EOC` (R159). -/
theorem Plays.keyTick_wait_ends (h : Plays d a pat 0 s) (hphase : s.key.phase = .wait)
    (htimer : s.key.timer.toNat = 1) : (keyTick (virtualPaddles s) s).ev = .eoc := by
  obtain ⟨hdot, hdash⟩ := h.latches_zero
  rw [h.virtualPaddles_zero, keyTick_wait hphase,
    phaseWait_expires (s := clearEvent s) htimer (tryStart_of_silent hdot hdash)]
  rfl

/-! ## Lists of events -/

/-- The events of `n` tick steps. -/
def tickEvents (raw : Nat → Lines Bool) (n : Nat) (s : State) : List Event :=
  (List.range n).map fun k => tickEvent raw k s

theorem tickEvents_add (raw : Nat → Lines Bool) (m n : Nat) (s : State) :
    tickEvents raw (m + n) s = tickEvents raw m s ++ tickEvents (fun k => raw (m + k)) n (ticksAfter raw m s) := by
  simp only [tickEvents, List.range_add, List.map_append, List.map_map, Function.comp_def, tickEvent_add]

/-- The tick steps emit these events and no others, and with the last of them the playback has ended. -/
structure Sends (raw : Nat → Lines Bool) (events : List Event) (s : State) : Prop where
  sent : tickEvents raw events.length s = events
  inactive : (ticksAfter raw events.length s).pb.active = false
  done : (ticksAfter raw events.length s).evflags.getLsbD 9 = true
  mode : (ticksAfter raw events.length s).mode = .memSendTx

theorem Sends.append {first rest : List Event} (hfirst : tickEvents raw first.length s = first)
    (h : Sends (fun k => raw (first.length + k)) rest (ticksAfter raw first.length s)) :
    Sends raw (first ++ rest) s := by
  obtain ⟨sent, inactive, done, mode⟩ := h
  rw [← ticksAfter_add, ← List.length_append] at inactive done mode
  refine ⟨?_, inactive, done, mode⟩
  rw [List.length_append, tickEvents_add, hfirst, sent]

theorem Sends.cons {e : Event} {rest : List Event} (hfirst : (tickOn (raw 0) s).ev = e)
    (h : Sends (fun k => raw (1 + k)) rest (tickOn (raw 0) s)) : Sends raw (e :: rest) s :=
  Sends.append (first := [e]) (congrArg (fun e => [e]) hfirst) h

/-- The last tick of the character gap ends the playback. -/
theorem Plays.sends_eoc (h : Plays d a pat 0 s) (hphase : s.key.phase = .wait) (htimer : s.key.timer.toNat = 1)
    (raw : Nat → Lines Bool) : Sends raw [.eoc] s := by
  have tick := playbackTick_tickOn (raw 0) h.mode
  have hev : (tickOn (raw 0) s).ev = .eoc := tick.engine.ev.trans (h.keyTick_wait_ends hphase htimer)
  refine ⟨congrArg (fun e => [e]) hev, ?_, tick.done h.active hev, tick.mode⟩
  refine (congrArg Playback.active tick.pb).trans ?_
  rw [hev, fed, if_neg (by simp [Event.isElement]), if_pos ⟨h.active, rfl⟩]

/-- With `n + 1` ticks of the character gap left the rest is silence and the `EOC`. -/
theorem Plays.sends_wait (n : Nat) {s : State} (h : Plays d a pat 0 s) (hphase : s.key.phase = .wait)
    (htimer : s.key.timer.toNat = n + 1) (raw : Nat → Lines Bool) :
    Sends raw (List.replicate n .none ++ [.eoc]) s := by
  induction n generalizing s raw with
  | zero => exact h.sends_eoc hphase htimer raw
  | succ n ih =>
    have hkey := h.keyTick_wait_runs hphase (by omega)
    have engine := (playbackTick_tickOn (raw 0) h.mode).engine
    rw [hkey] at engine
    have hev : (tickOn (raw 0) s).ev = .none := engine.ev
    refine Sends.cons hev (ih (h.tick_quiet _ (by rw [hev]; decide)) ?_ ?_ _)
    · rw [engine.key]
      exact hphase
    · rw [engine.key]
      exact countDown_timer_toNat (s := clearEvent s) htimer

/-- After the last element come the character gap and the `EOC`. -/
theorem Plays.sends_nil (h : Plays d a pat 0 s) (hphase : s.key.phase = .gap) (htimer : s.key.timer.toNat = 1)
    (ha : 1 ≤ a) (raw : Nat → Lines Bool) : Sends raw (timeline d a []) s := by
  obtain ⟨n, rfl⟩ := Nat.exists_eq_add_of_le' ha
  have hkey := h.keyTick_gap_zero hphase htimer
  have engine := (playbackTick_tickOn (raw 0) h.mode).engine
  rw [hkey] at engine
  have hev : (tickOn (raw 0) s).ev = .none := engine.ev
  refine Sends.cons hev ((h.tick_quiet _ (by rw [hev]; decide)).sends_wait n ?_ ?_ _)
  · rw [engine.key]
  · rw [engine.key]
    exact h.dashTime

/-- The events of an element and its gap. -/
def elementEvents (d a : Nat) (x : Element) : List Event :=
  eventOf x :: List.replicate (lengthOf d a x - 1) .none ++ (.eoe :: List.replicate (d - 1) .none)

theorem timeline_cons (x : Element) (xs : List Element) :
    timeline d a (x :: xs) = elementEvents d a x ++ timeline d a xs := by
  cases x <;> rfl

theorem elementEvents_eq (x : Element) (hd : 1 ≤ d) (hx : 1 ≤ lengthOf d a x) :
    elementEvents d a x = (List.range (lengthOf d a x + d)).map (elementEvent x (lengthOf d a x)) := by
  have hlength : (elementEvents d a x).length = lengthOf d a x + d := by
    simp only [elementEvents, List.length_append, List.length_cons, List.length_replicate]
    omega
  refine List.ext_getElem (by rw [hlength, List.length_map, List.length_range]) fun k hk _ => ?_
  simp only [elementEvents, elementEvent, List.getElem_append, List.getElem_cons, List.getElem_replicate,
    List.getElem_map, List.getElem_range, List.length_cons, List.length_replicate]
  grind

theorem SendsElement.tickEvents_eq (h : SendsElement raw d a pat n x s) (hd : 1 ≤ d) (hx : 1 ≤ lengthOf d a x) :
    tickEvents raw (lengthOf d a x + d) s = elementEvents d a x := by
  rw [elementEvents_eq x hd hx]
  exact List.map_congr_left fun k hk => h.events k (List.mem_range.mp hk)

theorem elementEvents_length (x : Element) (hd : 1 ≤ d) (hx : 1 ≤ lengthOf d a x) :
    (elementEvents d a x).length = lengthOf d a x + d := by
  rw [elementEvents_eq x hd hx, List.length_map, List.length_range]

/-- The timeline of an element list begins with the first element. -/
theorem SendsElement.sends (h : SendsElement raw d a pat n x s) (hd : 1 ≤ d) (ha : 1 ≤ a)
    (rest : ∀ raw s, Plays d a pat n s → s.key.phase = .gap → s.key.timer.toNat = 1 →
      Sends raw (timeline d a (elementsLeft pat n)) s) :
    Sends raw (timeline d a (x :: elementsLeft pat n)) s := by
  have hx : 1 ≤ lengthOf d a x := by cases x <;> assumption
  have hlen := elementEvents_length x hd hx
  rw [timeline_cons]
  refine Sends.append (by rw [hlen, h.tickEvents_eq hd hx]) ?_
  rw [hlen]
  exact rest _ _ h.plays h.gap h.timer

/-- From the last tick of a gap the remaining elements are sent, by induction on their number. -/
theorem Plays.sends (n : Nat) (hd : 1 ≤ d) (ha : 1 ≤ a) : ∀ raw s, Plays d a pat n s → s.key.phase = .gap →
    s.key.timer.toNat = 1 → Sends raw (timeline d a (elementsLeft pat n)) s := by
  induction n with
  | zero => exact fun raw s h hphase htimer => h.sends_nil hphase htimer ha raw
  | succ n ih =>
    intro raw s h hphase htimer
    rw [elementsLeft_succ]
    exact (h.sendsElement (.inr ⟨hphase, htimer⟩) raw hd ha).sends hd ha ih

end

/-- Settles O56: the first element starts from rest, and the others from the last tick of the gap before them. -/
theorem playbackSendsTheEncodedTimeline : Obligations.PlaybackSendsTheEncodedTimeline := by
  intro s raw hmode hactive hpat hrem hphase hdot hdash hd ha
  have hlength : 1 ≤ patternLength s.pb.pat := (Nat.le_log2 (by omega)).mpr hpat
  obtain ⟨n, hn⟩ := Nat.exists_eq_add_of_le' hlength
  have h : Plays s.key.dotTime.toNat s.key.dashTime.toNat s.pb.pat (n + 1) s :=
    ⟨hmode, hactive, rfl, hrem.trans hn, ⟨fun h => by simp [hdot] at h, fun h => by simp [hdash] at h⟩, rfl, rfl⟩
  rw [← elementsLeft_patternLength, hn, elementsLeft_succ]
  obtain ⟨sent, inactive, done, mode⟩ := (h.sendsElement (.inl hphase) raw hd ha).sends hd ha (Plays.sends n hd ha)
  exact ⟨sent, inactive, done, mode⟩

end Sys2Proof.Machine
